-- ==== Sys2Proof/Word.lean ====
section
/-! DEFINITION. The two bit-vector widths of the GoBoy CORE (spec/00_scope.md section 6): a byte has 8 bits, a word 16. -/

namespace Sys2Proof

/-- A byte: 8 bits. -/
abbrev Byte := BitVec 8

/-- A word: 16 bits (`SP`, `PC`, addresses, 16-bit immediates). -/
abbrev Word := BitVec 16

end Sys2Proof
end

