-- ==== Sys2Proof/Machine/Bits.lean ====
section
/-! DEFINITION. Bit fields, byte order and extension (spec/00_scope.md section 6), used by the decoder and the machine. -/

namespace Sys2Proof.Machine

/-- `hi(w) = (w >> 8) & 0xFF`. -/
def hiByte (w : Word) : Byte := BitVec.extractLsb' 8 8 w

/-- `lo(w) = w & 0xFF`. -/
def loByte (w : Word) : Byte := BitVec.extractLsb' 0 8 w

/-- `hi : lo`, the word `hi*256 + lo`. -/
def joinBytes (hi lo : Byte) : Word := hi ++ lo

/-- `zext_16(b)`. -/
def zext16 (b : Byte) : Word := b.setWidth 16

/-- `sext_16(b)`: the byte read as a two's-complement number, modulo 0x10000. -/
def sext16 (b : Byte) : Word := b.signExtend 16

/-- The low nibble `v[3:0]` as a number. -/
def lowNibble (b : Byte) : Nat := b.toNat % 16

/-- Set or clear bit `k` of a byte by a mask, leaving the others: "All flag mutation is via masked set/clear"
(10_state.md R13). -/
def putBit (k : Nat) (v : Bool) (b : Byte) : Byte :=
  if v then b ||| (1#8 <<< k) else b &&& ~~~(1#8 <<< k)

/-- Field `x = op[7:6]` of an opcode byte (30_encoding.md R120). -/
def fieldX (op : Byte) : Nat := op.toNat / 64

/-- Field `y = op[5:3]`. -/
def fieldY (op : Byte) : Nat := op.toNat / 8 % 8

/-- Field `z = op[2:0]`. -/
def fieldZ (op : Byte) : Nat := op.toNat % 8

end Sys2Proof.Machine
end

