-- ==== Sys2Proof/Machine/Memory.lean ====
section
/-! DEFINITION. A byte array of the machine as a sparse list of (index, byte) pairs in one canonical form. -/

namespace Sys2Proof.Machine

/-- One byte array of 10_state.md R20 and R21: the bytes that differ from `Memory.unlisted`, by rising index. -/
abbrev Memory := List Host.Cell

/-- What an index that is not listed reads as: 0x00, the reset contents of 10_state.md R33 (decision D29).
DESIGN CHOICE of the spec (log 1). -/
def Memory.unlisted : Byte := 0x00

/-- The byte at index `k`. -/
def Memory.read (m : Memory) (k : Nat) : Byte :=
  match m with
  | [] => Memory.unlisted
  | (a, v) :: rest => if a = k then v else Memory.read rest k

/-- Put a listed cell in front, unless its byte is what an unlisted index reads as. -/
def Memory.cell (k : Nat) (v : Byte) (rest : Memory) : Memory :=
  if v = Memory.unlisted then rest else (k, v) :: rest

/-- Store `v` at index `k`, keeping the canonical form. -/
def Memory.write (m : Memory) (k : Nat) (v : Byte) : Memory :=
  match m with
  | [] => Memory.cell k v []
  | (a, w) :: rest =>
    if k < a then Memory.cell k v ((a, w) :: rest)
    else if k = a then Memory.cell k v rest
    else (a, w) :: Memory.write rest k v

/-- The canonical form from index `lo` on: indices strictly rising and below `size`, no byte equal to
`Memory.unlisted`. -/
def Memory.wfFrom (size lo : Nat) (m : Memory) : Bool :=
  match m with
  | [] => true
  | (a, v) :: rest =>
    decide (lo ≤ a) && decide (a < size) && decide (v ≠ Memory.unlisted) && Memory.wfFrom size (a + 1) rest

/-- `m` is an array of `size` bytes in canonical form. -/
def Memory.wf (size : Nat) (m : Memory) : Bool := Memory.wfFrom size 0 m

end Sys2Proof.Machine
end

