-- ==== Sys2Proof/Config.lean ====
section
/-! DEFINITION. What an instantiation of the CORE fixes (spec/00_scope.md R4), the baseline that `State.reset` uses, and
the one free value (the wall clock, R5). -/

namespace Sys2Proof

/-- The controller type tag `MBC_TYPE` (00_scope.md R4, 10_state.md R22). -/
inductive MbcType
  | romOnly
  | mbc5bit
  | mbc7bitRtc
  | mbc8bit
  deriving DecidableEq, Repr

/-- The size of the external RAM, `RAM_SIZE` (00_scope.md R4): one of five. -/
inductive RamSize
  | none
  | kib2
  | kib8
  | kib32
  | kib128
  deriving DecidableEq, Repr

/-- `RAM_SIZE` in bytes. -/
def RamSize.bytes : RamSize → Nat
  | .none => 0
  | .kib2 => 2048
  | .kib8 => 8192
  | .kib32 => 32768
  | .kib128 => 131072

/-- What the cartridge supplies (00_scope.md R4): the ROM image (`ROM_LEN` bytes, those not listed 0x00), the
controller type tag and the external RAM's size. No rule changes it (10_state.md R21). -/
structure Cartridge where
  rom     : Machine.Memory
  romLen  : Nat
  mbcType : MbcType
  ramSize : RamSize
  deriving DecidableEq, Repr

/-- The byte a read returns where no storage answers (00_scope.md R4, decision D17; log 14). -/
def Config.sentinel : Byte := 0xFF

/-- The smallest image: "A file smaller than 0x150 bytes is rejected as invalid" (00_scope.md R4). -/
def Config.minRomLen : Nat := 0x150

/-- The cartridge of `State.reset`: the baseline of 95_test_vectors.md (RomOnly, no external RAM, 32 KiB of zeros).
DESIGN CHOICE, unsafe (log 4): every other cartridge is an argument of `State.newEngine`. -/
def Config.cartridge : Cartridge :=
  { rom := [], romLen := 0x8000, mbcType := .romOnly, ramSize := .none }

/-- `IO_RESET` of `State.reset`: 128 zero bytes. DESIGN CHOICE, unsafe (log 2): the spec leaves the values open. -/
def Config.ioReset : Machine.Memory := []

/-- `T0` of `State.reset`. DESIGN CHOICE, unsafe (log 3): the spec leaves the value open. -/
def Config.t0 : Nat := 0

/-- FREE VALUE (log 6): how many seconds the wall clock advances before a step for which the host has queued no
sample; the argument counts such steps. 00_scope.md R5 fixes only that `now` never decreases. -/
opaque Config.secondsBetweenSteps : Nat → Nat

end Sys2Proof
end

