-- ==== Sys2Proof/Machine/State.lean ====
section
/-! DEFINITION. Everything the spec gives the machine (spec/10_state.md), as plain data; the outcomes of a step; reset. -/

namespace Sys2Proof.Machine

/-- The CPU registers (10_state.md R10). `f` is a bit vector because `PUSH AF` and `POP AF` move it whole. -/
structure Regs where
  a   : Byte
  b   : Byte
  c   : Byte
  d   : Byte
  e   : Byte
  h   : Byte
  l   : Byte
  /-- Flags: bit 7 Zero, 6 Subtract, 5 Half-Carry, 4 Carry, 3..0 always zero (R13). -/
  f   : Byte
  sp  : Word
  pc  : Word
  /-- Interrupt-master-enable: storage only (R17). -/
  ime : Bool
  deriving DecidableEq, Repr

/-- The bank controller's registers (R22). -/
structure Mbc where
  ramEnabled : Bool
  romBank    : Byte
  /-- RAM bank 0 to 3, or an RTC selector 0x08 to 0x0C. -/
  ramBank    : Byte
  /-- In the data model, written and read by nothing (R22, decision D22). -/
  mode       : Bool
  deriving DecidableEq, Repr

/-- The real-time clock (R24): `rtcS rtcM rtcH rtcDL rtcDH rtcLatched rtcLast`. Halt is bit 6 of `dh`, overflow bit 7.
It stands in State for every controller type and is reached on one only (log 11). -/
structure Rtc where
  s       : Byte
  m       : Byte
  h       : Byte
  dl      : Byte
  dh      : Byte
  latched : Bool
  last    : Nat
  deriving DecidableEq, Repr

/-- The bus-owned arrays and the external RAM (R20, R21). -/
structure Ram where
  vram : Memory
  wram : Memory
  oam  : Memory
  io   : Memory
  hram : Memory
  ie   : Byte
  eram : Memory
  deriving DecidableEq, Repr

/-- The wall clock as an input of the steps (00_scope.md R5). The model's own fields, not the spec's (log 6). -/
structure Clock where
  /-- The sample `now` of the step being run. -/
  now     : Nat
  /-- The samples the host has queued for the coming steps, oldest first. -/
  samples : List Nat
  /-- How many free advances of the clock have been used. -/
  draws   : Nat
  deriving DecidableEq, Repr

/-- The state of the CORE. -/
structure State where
  regs  : Regs
  mbc   : Mbc
  rtc   : Rtc
  ram   : Ram
  /-- The parameters of reset, changed by no rule (00_scope.md R4). -/
  cart  : Cartridge
  clock : Clock
  deriving DecidableEq, Repr

/-- Which dispatch table found no handler (60_exceptions.md R270). -/
inductive OpcodeTable
  | primary
  | secondary
  deriving DecidableEq, Repr

/-- Why a step stops for good. -/
inductive Fault
  /-- The step result Halted (60_exceptions.md R270): raised by the step on an unmapped primary byte and by the prefix
  row on an unmapped secondary byte. `table`, `byte` and `addr` are what the result carries; `after` is the state after
  the step (70_reset_and_hazards.md R370): the state before it, but for an RTC refresh made by a fetch. Safe: the spec
  itself ends the run here (R273; log 7). -/
  | unmappedOpcode (table : OpcodeTable) (byte : Byte) (addr : Word) (after : State)
  deriving DecidableEq, Repr

/-- Why the model gives no meaning. -/
inductive Refusal
  /-- An arm of `exec` that has no meaning yet raises it, with the row's mnemonic. Safe: nothing can be proved about
  such an instruction. No arm of this model raises it. -/
  | notModelled (mnemonic : String)
  deriving DecidableEq, Repr

/-- What a meaning answers. -/
abbrev Result := Host.Outcome State Fault Refusal

/-- `new_engine` (70_reset_and_hazards.md R330, 10_state.md R30 to R34): the state right after reset, for any cartridge,
any contents of the I/O range and any initial time. -/
def State.newEngine (cart : Cartridge) (ioReset : Memory) (t0 : Nat) : State :=
  { regs :=
      { a := 0x00, b := 0x00, c := 0x00, d := 0x00, e := 0x00, h := 0x00, l := 0x00, f := 0x00,
        sp := 0x0000, pc := 0x0100, ime := false }
    mbc := { ramEnabled := false, romBank := 1, ramBank := 0, mode := false }
    rtc := { s := 0x00, m := 0x00, h := 0x00, dl := 0x00, dh := 0x00, latched := false, last := t0 }
    ram := { vram := [], wram := [], oam := [], io := ioReset, hram := [], ie := 0x00, eram := [] }
    cart := cart
    clock := { now := t0, samples := [], draws := 0 } }

/-- The machine right after reset, with the parameters `Config` names (log 2, 3, 4). -/
def State.reset : State := State.newEngine Config.cartridge Config.ioReset Config.t0

end Sys2Proof.Machine
end

