-- ==== Sys2Proof/Syntax.lean ====
section
/-! DEFINITION. The instructions of the GoBoy CORE: one constructor per row of spec/opcode_table.json, and the operand
codes of 30_encoding.md R124 to R129. `mHL` is the memory byte at address `HL`, `ma16` the byte at address `a16`. -/

namespace Sys2Proof

/-- The seven registers that have an `r8` code (30_encoding.md R124). -/
inductive Reg8
  | B
  | C
  | D
  | E
  | H
  | L
  | A
  deriving DecidableEq, Repr

/-- An 8-bit operand (R124): a register, or code 6, the memory byte at `HL`. -/
inductive Opnd8
  | reg (r : Reg8)
  | mHL
  deriving DecidableEq, Repr

/-- The pairs that both `LD rr,d16` and `PUSH`/`POP` name (R125, R126, codes 0 to 2). -/
inductive Pair
  | BC
  | DE
  | HL
  deriving DecidableEq, Repr

/-- The conditions of `JR cc,e8` (R127). -/
inductive Cond
  | NZ
  | Z
  | NC
  | C
  deriving DecidableEq, Repr

/-- The operations of the rotate and shift family (R129, 44_rotate_shift.md R230). -/
inductive RotKind
  | rlc
  | rrc
  | rl
  | rr
  | sla
  | sra
  | srl
  deriving DecidableEq, Repr

/-- The four ALU operations on `A` (R128). -/
inductive AluOp
  | add
  | sub
  | xor
  | cp
  deriving DecidableEq, Repr

/-- The instructions, in the order of spec/opcode_table.json. `prefix_CB op2` is the row of the prefix byte: the
dispatch wrapper of 44_rotate_shift.md R235 with second byte `op2` (log 8). -/
inductive Instr
  | nop
  | ld_BC_d16 (d16 : Word)
  | inc_B
  | dec_B
  | ld_B_d8 (d8 : Byte)
  | rlca
  | inc_C
  | dec_C
  | ld_C_d8 (d8 : Byte)
  | rrca
  | ld_DE_d16 (d16 : Word)
  | inc_D
  | dec_D
  | ld_D_d8 (d8 : Byte)
  | rla
  | jr_e8 (e8 : Byte)
  | inc_E
  | dec_E
  | ld_E_d8 (d8 : Byte)
  | rra
  | jr_NZ_e8 (e8 : Byte)
  | ld_HL_d16 (d16 : Word)
  | inc_H
  | dec_H
  | ld_H_d8 (d8 : Byte)
  | jr_Z_e8 (e8 : Byte)
  | inc_L
  | dec_L
  | ld_L_d8 (d8 : Byte)
  | cpl
  | jr_NC_e8 (e8 : Byte)
  | ld_SP_d16 (d16 : Word)
  | inc_mHL
  | dec_mHL
  | ld_mHL_d8 (d8 : Byte)
  | jr_C_e8 (e8 : Byte)
  | inc_A
  | dec_A
  | ld_A_d8 (d8 : Byte)
  | ld_B_B
  | ld_B_C
  | ld_B_D
  | ld_B_E
  | ld_B_H
  | ld_B_L
  | ld_B_mHL
  | ld_B_A
  | ld_C_B
  | ld_C_C
  | ld_C_D
  | ld_C_E
  | ld_C_H
  | ld_C_L
  | ld_C_mHL
  | ld_C_A
  | ld_D_B
  | ld_D_C
  | ld_D_D
  | ld_D_E
  | ld_D_H
  | ld_D_L
  | ld_D_mHL
  | ld_D_A
  | ld_E_B
  | ld_E_C
  | ld_E_D
  | ld_E_E
  | ld_E_H
  | ld_E_L
  | ld_E_mHL
  | ld_E_A
  | ld_H_B
  | ld_H_C
  | ld_H_D
  | ld_H_E
  | ld_H_H
  | ld_H_L
  | ld_H_mHL
  | ld_H_A
  | ld_L_B
  | ld_L_C
  | ld_L_D
  | ld_L_E
  | ld_L_H
  | ld_L_L
  | ld_L_mHL
  | ld_L_A
  | ld_mHL_B
  | ld_mHL_C
  | ld_mHL_D
  | ld_mHL_E
  | ld_mHL_H
  | ld_mHL_L
  | ld_mHL_A
  | ld_A_B
  | ld_A_C
  | ld_A_D
  | ld_A_E
  | ld_A_H
  | ld_A_L
  | ld_A_mHL
  | ld_A_A
  | add_A_B
  | add_A_C
  | add_A_D
  | add_A_E
  | add_A_H
  | add_A_L
  | add_A_mHL
  | add_A_A
  | sub_B
  | sub_C
  | sub_D
  | sub_E
  | sub_H
  | sub_L
  | sub_mHL
  | sub_A
  | xor_B
  | xor_C
  | xor_D
  | xor_E
  | xor_H
  | xor_L
  | xor_mHL
  | xor_A
  | cp_B
  | cp_C
  | cp_D
  | cp_E
  | cp_H
  | cp_L
  | cp_mHL
  | cp_A
  | pop_BC
  | jp_a16 (a16 : Word)
  | push_BC
  | add_A_d8 (d8 : Byte)
  | rst_0x00
  | ret
  | prefix_CB (op2 : Byte)
  | call_a16 (a16 : Word)
  | rst_0x08
  | pop_DE
  | push_DE
  | sub_d8 (d8 : Byte)
  | rst_0x10
  | rst_0x18
  | pop_HL
  | push_HL
  | rst_0x20
  | ld_ma16_A (a16 : Word)
  | xor_d8 (d8 : Byte)
  | rst_0x28
  | pop_AF
  | di
  | push_AF
  | rst_0x30
  | ld_A_ma16 (a16 : Word)
  | ei
  | cp_d8 (d8 : Byte)
  | rst_0x38
  | rlc_B
  | rlc_C
  | rlc_D
  | rlc_E
  | rlc_H
  | rlc_L
  | rlc_mHL
  | rlc_A
  | rrc_B
  | rrc_C
  | rrc_D
  | rrc_E
  | rrc_H
  | rrc_L
  | rrc_mHL
  | rrc_A
  | rl_B
  | rl_C
  | rl_D
  | rl_E
  | rl_H
  | rl_L
  | rl_mHL
  | rl_A
  | rr_B
  | rr_C
  | rr_D
  | rr_E
  | rr_H
  | rr_L
  | rr_mHL
  | rr_A
  | sla_B
  | sla_C
  | sla_D
  | sla_E
  | sla_H
  | sla_L
  | sla_mHL
  | sla_A
  | sra_B
  | sra_C
  | sra_D
  | sra_E
  | sra_H
  | sra_L
  | sra_mHL
  | sra_A
  | srl_B
  | srl_C
  | srl_D
  | srl_E
  | srl_H
  | srl_L
  | srl_mHL
  | srl_A
  deriving DecidableEq, Repr

end Sys2Proof
end

