-- ==== Sys2Proof/Machine/Flags.lean ====
section
/-! DEFINITION. The flags and every flag computation (spec/10_state.md R13, R14; 43_alu8.md R210; 44_rotate_shift.md
R230; 41_control_transfer.md R187). -/

namespace Sys2Proof.Machine

/-- `F.Z`, bit 7. -/
def State.flagZ (s : State) : Bool := s.regs.f.getLsbD 7

/-- `F.N`, bit 6. -/
def State.flagN (s : State) : Bool := s.regs.f.getLsbD 6

/-- `F.H`, bit 5. -/
def State.flagH (s : State) : Bool := s.regs.f.getLsbD 5

/-- `F.C`, bit 4. -/
def State.flagC (s : State) : Bool := s.regs.f.getLsbD 4

/-- Write Z, N and H by masks; Carry and the low nibble stay (R13). -/
def putZNH (z n h : Bool) (f : Byte) : Byte := putBit 5 h (putBit 6 n (putBit 7 z f))

/-- Write all four flags by masks; the low nibble stays (R13; log 15). -/
def putZNHC (z n h c : Bool) (f : Byte) : Byte := putBit 4 c (putZNH z n h f)

/-- `F.Z, F.N, F.H <- …`. -/
def State.setZNH (s : State) (z n h : Bool) : State := { s with regs.f := putZNH z n h s.regs.f }

/-- `F.Z, F.N, F.H, F.C <- …`. -/
def State.setZNHC (s : State) (z n h c : Bool) : State := { s with regs.f := putZNHC z n h c s.regs.f }

/-! ## Addition and subtraction (43_alu8.md R210) -/

/-- `result <- sum & 0xFF`. -/
def addByte (a b : Byte) : Byte := BitVec.ofNat 8 (a.toNat + b.toNat)

/-- Carry out of bit 3: `(a & 0x0F) + (b & 0x0F) > 0x0F`. -/
def addHalf (a b : Byte) : Bool := decide (lowNibble a + lowNibble b > 0x0F)

/-- Carry out of bit 7: `sum > 0xFF`. -/
def addCarry (a b : Byte) : Bool := decide (a.toNat + b.toNat > 0xFF)

/-- `result <- (a - b) mod 256`. -/
def subByte (a b : Byte) : Byte := BitVec.ofInt 8 ((a.toNat : Int) - (b.toNat : Int))

/-- Borrow from bit 4: `(a & 0x0F) < (b & 0x0F)`. -/
def subHalf (a b : Byte) : Bool := decide (lowNibble a < lowNibble b)

/-- Borrow: `a < b`. -/
def subCarry (a b : Byte) : Bool := decide (a.toNat < b.toNat)

/-- `(a + 1) mod 256`. -/
def incByte (a : Byte) : Byte := addByte a 1

/-- `(a - 1) mod 256`. -/
def decByte (a : Byte) : Byte := subByte a 1

/-- Flags of `INC`: Carry unchanged (R211). -/
def State.setIncFlags (s : State) (a : Byte) : State :=
  s.setZNH (decide (incByte a = 0)) false (decide (lowNibble a = 0x0F))

/-- Flags of `DEC`: Carry unchanged (R213). -/
def State.setDecFlags (s : State) (a : Byte) : State :=
  s.setZNH (decide (decByte a = 0)) true (decide (lowNibble a = 0x00))

/-- Flags of `ADD` (R215). -/
def State.setAddFlags (s : State) (a b : Byte) : State :=
  s.setZNHC (decide (addByte a b = 0)) false (addHalf a b) (addCarry a b)

/-- Flags of `SUB` and `CP` (R218, R221). -/
def State.setSubFlags (s : State) (a b : Byte) : State :=
  s.setZNHC (decide (a = b)) true (subHalf a b) (subCarry a b)

/-- Flags of `XOR` (R224). -/
def State.setXorFlags (s : State) (r : Byte) : State :=
  s.setZNHC (decide (r = 0)) false false false

/-- Flags of `CPL`: N and H set, Zero and Carry unchanged (R227). -/
def State.setCplFlags (s : State) : State := { s with regs.f := putBit 5 true (putBit 6 true s.regs.f) }

/-! ## Rotates and shifts (44_rotate_shift.md R230) -/

/-- The bit shifted out. -/
def rotOut (k : RotKind) (v : Byte) : Bool :=
  match k with
  | .rlc | .rl | .sla => v.getLsbD 7
  | .rrc | .rr | .sra | .srl => v.getLsbD 0

/-- The shifted byte; `cin` is the Carry before the instruction. -/
def rotResult (k : RotKind) (v : Byte) (cin : Bool) : Byte :=
  match k with
  | .rlc => putBit 0 (v.getLsbD 7) (v <<< 1)
  | .rrc => putBit 7 (v.getLsbD 0) (v >>> 1)
  | .rl => putBit 0 cin (v <<< 1)
  | .rr => putBit 7 cin (v >>> 1)
  | .sla => v <<< 1
  | .sra => putBit 7 (v.getLsbD 7) (v >>> 1)
  | .srl => v >>> 1

/-- Flags of the whole family: Zero from the result, also in the accumulator forms (R230, 90_conflicts.md C4). -/
def State.setRotFlags (s : State) (r : Byte) (out : Bool) : State :=
  s.setZNHC (decide (r = 0)) false false out

/-! ## Conditions -/

/-- `Cond(cc)` (41_control_transfer.md R187). -/
def State.holds (s : State) (cc : Cond) : Bool :=
  match cc with
  | .NZ => !s.flagZ
  | .Z => s.flagZ
  | .NC => !s.flagC
  | .C => s.flagC

end Sys2Proof.Machine
end

