-- ==== Sys2Proof/Machine/Rtc.lean ====
section
/-! DEFINITION. The real-time clock: refresh, read and write (spec/60_exceptions.md section 4). -/

namespace Sys2Proof.Machine

/-- The five registers of the clock (60_exceptions.md R300). -/
inductive RtcReg
  | seconds
  | minutes
  | hours
  | dayLow
  | dayHigh
  deriving DecidableEq, Repr

/-- The register that a value of `ramBank` selects (R300, 10_state.md R24). -/
def rtcSelect (sel : Byte) : Option RtcReg :=
  match sel.toNat with
  | 0x08 => some .seconds
  | 0x09 => some .minutes
  | 0x0A => some .hours
  | 0x0B => some .dayLow
  | 0x0C => some .dayHigh
  | _ => none

/-- Halt: bit 6 of `rtcDH`. -/
def Rtc.halted (r : Rtc) : Bool := r.dh.getLsbD 6

/-- The 9-bit day counter (R301). -/
def Rtc.days (r : Rtc) : Nat := r.dl.toNat + 256 * (r.dh.getLsbD 0).toNat

/-- `RtcRefresh(now)` (R303). A clock that runs backwards adds nothing and moves `rtcLast` back to `now`: the subtraction
of natural numbers is the rule's `elapsed`. -/
def Rtc.refresh (now : Nat) (r : Rtc) : Rtc :=
  if r.halted then r
  else
    let secs := r.s.toNat + (now - r.last)
    let mins := r.m.toNat + secs / 60
    let hours := r.h.toNat + mins / 60
    let days := r.days + hours / 24
    let dh := if days > 511 then putBit 7 true r.dh else r.dh
    { r with
      s := BitVec.ofNat 8 (secs % 60)
      m := BitVec.ofNat 8 (mins % 60)
      h := BitVec.ofNat 8 (hours % 24)
      dl := BitVec.ofNat 8 (days % 512 % 256)
      dh := putBit 0 (decide (256 ≤ days % 512)) dh
      last := now }

/-- The byte of a register, whole (R306). -/
def Rtc.get (reg : RtcReg) (r : Rtc) : Byte :=
  match reg with
  | .seconds => r.s
  | .minutes => r.m
  | .hours => r.h
  | .dayLow => r.dl
  | .dayHigh => r.dh

/-- `RtcWrite(sel, v)` (R307): the byte is stored whole, nothing else moves. -/
def Rtc.put (reg : RtcReg) (v : Byte) (r : Rtc) : Rtc :=
  match reg with
  | .seconds => { r with s := v }
  | .minutes => { r with m := v }
  | .hours => { r with h := v }
  | .dayLow => { r with dl := v }
  | .dayHigh => { r with dh := v }

/-- What a read of a register does first: a refresh, unless the clock is latched (R306). -/
def Rtc.beforeRead (now : Nat) (r : Rtc) : Rtc :=
  if r.latched then r else r.refresh now

/-- `LatchWrite(v)` on the RTC-capable controller (20_memory.md R74): the whole byte is compared with 0 and 1. -/
def Rtc.latchWrite (now : Nat) (v : Byte) (r : Rtc) : Rtc :=
  if v = 0x00 then { r with latched := false }
  else if v = 0x01 then { r.refresh now with latched := true }
  else r

end Sys2Proof.Machine
end

