-- ==== Sys2Proof/Machine/Bus.lean ====
section
/-! DEFINITION. The memory bus and bank controller (spec/20_memory.md): routing, `BusRead`, `BusWrite`, `ControlWrite`. -/

namespace Sys2Proof.Machine

/-- What an address reaches (20_memory.md R52). -/
inductive Store
  | rom (off : Nat)
  | vram (k : Nat)
  | eram (off : Nat)
  | rtc (reg : RtcReg)
  | wram (k : Nat)
  | oam (k : Nat)
  | io (k : Nat)
  | hram (k : Nat)
  | ie
  /-- No storage: an unhandled access (R67), or the external window while it is disabled (R80). -/
  | nowhere
  deriving DecidableEq, Repr

/-- `RomByte(off)` reaches the image only below `ROM_LEN`; bank numbers are not reduced (R59). -/
def romStore (s : State) (off : Nat) : Store :=
  if off < s.cart.romLen then .rom off else .nowhere

/-- The RTC register that the external window shows, if it shows one (R80). -/
def rtcWindow (s : State) : Option RtcReg :=
  match s.cart.mbcType with
  | .mbc7bitRtc => rtcSelect s.mbc.ramBank
  | .romOnly | .mbc5bit | .mbc8bit => none

/-- The external window 0xA000 to 0xBFFF (R80, R81, R82). -/
def extStore (s : State) (a : Nat) : Store :=
  if s.mbc.ramEnabled = false then .nowhere
  else
    match rtcWindow s with
    | some reg => .rtc reg
    | none =>
      let off := (a - 0xA000) + s.mbc.ramBank.toNat * 0x2000
      if off < s.cart.ramSize.bytes then .eram off else .nowhere

/-- Routing by range (R52, R54, R55). -/
def route (s : State) (addr : Word) : Store :=
  let a := addr.toNat
  if a ≤ 0x3FFF then romStore s a
  else if a ≤ 0x7FFF then romStore s ((a - 0x4000) + s.mbc.romBank.toNat * 0x4000)
  else if a ≤ 0x9FFF then .vram (a - 0x8000)
  else if a ≤ 0xBFFF then extStore s a
  else if a ≤ 0xDFFF then .wram (a - 0xC000)
  else if a ≤ 0xFDFF then .wram (a - 0xE000)
  else if a ≤ 0xFE9F then .oam (a - 0xFE00)
  else if a ≤ 0xFEFF then .nowhere
  else if a ≤ 0xFF7F then .io (a - 0xFF00)
  else if a ≤ 0xFFFE then .hram (a - 0xFF80)
  else .ie

/-- The byte a store holds; the sentinel where there is none (R67). -/
def State.storeByte (s : State) (st : Store) : Byte :=
  match st with
  | .rom off => s.cart.rom.read off
  | .vram k => s.ram.vram.read k
  | .eram off => s.ram.eram.read off
  | .rtc reg => s.rtc.get reg
  | .wram k => s.ram.wram.read k
  | .oam k => s.ram.oam.read k
  | .io k => s.ram.io.read k
  | .hram k => s.ram.hram.read k
  | .ie => s.ram.ie
  | .nowhere => Config.sentinel

/-- What a read of a store changes: an unlatched clock is refreshed, nothing else (R68, 60_exceptions.md R306). -/
def State.touchStore (s : State) (st : Store) : State :=
  match st with
  | .rtc _ => { s with rtc := s.rtc.beforeRead s.clock.now }
  | .rom _ | .vram _ | .eram _ | .wram _ | .oam _ | .io _ | .hram _ | .ie | .nowhere => s

/-- `BusRead(a)` (R54): the byte, and the state after the read. -/
def busRead (addr : Word) (s : State) : Byte × State :=
  let s' := s.touchStore (route s addr)
  (s'.storeByte (route s addr), s')

/-- Put a byte into a store. Nothing reaches the ROM (R70) or no storage at all (R67). -/
def State.putStore (s : State) (st : Store) (v : Byte) : State :=
  match st with
  | .rom _ => s
  | .vram k => { s with ram.vram := s.ram.vram.write k v }
  | .eram off => { s with ram.eram := s.ram.eram.write off v }
  | .rtc reg => { s with rtc := s.rtc.put reg v }
  | .wram k => { s with ram.wram := s.ram.wram.write k v }
  | .oam k => { s with ram.oam := s.ram.oam.write k v }
  | .io k => { s with ram.io := s.ram.io.write k v }
  | .hram k => { s with ram.hram := s.ram.hram.write k v }
  | .ie => { s with ram.ie := v }
  | .nowhere => s

/-! ## Bank-control writes (20_memory.md section 3) -/

/-- `RamEnableWrite(v)` (R71). -/
def ramEnableWrite (v : Byte) (s : State) : State :=
  { s with mbc.ramEnabled := decide (lowNibble v = 0x0A) }

/-- The ROM bank that a written byte selects (R72); `RomOnly` keeps bank 1 (R70). -/
def romBankOf (t : MbcType) (v : Byte) : Byte :=
  match t with
  | .romOnly => 1
  | .mbc5bit => if v &&& 0x1F = 0 then 1 else v &&& 0x1F
  | .mbc7bitRtc => v &&& 0x7F
  | .mbc8bit => v

/-- `RomBankWrite(v)` (R72). -/
def romBankWrite (v : Byte) (s : State) : State :=
  { s with mbc.romBank := romBankOf s.cart.mbcType v }

/-- The RAM bank or RTC selector that a written byte selects (R73); `RomOnly` keeps bank 0 (R70). -/
def ramBankOf (t : MbcType) (v : Byte) : Byte :=
  match t with
  | .romOnly => 0
  | .mbc5bit | .mbc8bit => v &&& 0x03
  | .mbc7bitRtc => if 0x08 ≤ v.toNat ∧ v.toNat ≤ 0x0C then v else v &&& 0x03

/-- `RamBankWrite(v)` (R73). -/
def ramBankWrite (v : Byte) (s : State) : State :=
  { s with mbc.ramBank := ramBankOf s.cart.mbcType v }

/-- `LatchWrite(v)` (R74): the RTC-capable controller only. -/
def latchWrite (v : Byte) (s : State) : State :=
  match s.cart.mbcType with
  | .mbc7bitRtc => { s with rtc := s.rtc.latchWrite s.clock.now v }
  | .romOnly | .mbc5bit | .mbc8bit => s

/-- `ControlWrite(a, v)` (R70): the range decides, a ROM-only cartridge ignores all four. -/
def controlWrite (addr : Word) (v : Byte) (s : State) : State :=
  match s.cart.mbcType with
  | .romOnly => s
  | .mbc5bit | .mbc7bitRtc | .mbc8bit =>
    if addr.toNat ≤ 0x1FFF then ramEnableWrite v s
    else if addr.toNat ≤ 0x3FFF then romBankWrite v s
    else if addr.toNat ≤ 0x5FFF then ramBankWrite v s
    else latchWrite v s

/-- `BusWrite(a, v)` (R55). -/
def busWrite (addr : Word) (v : Byte) (s : State) : State :=
  if addr.toNat ≤ 0x7FFF then controlWrite addr v s
  else s.putStore (route s addr) v

end Sys2Proof.Machine
end

