-- ==== Sys2Proof/Machine/Operands.lean ====
section
/-! DEFINITION. Operand forms: registers, pairs and the memory byte at `HL` (spec/30_encoding.md R124 to R126). -/

namespace Sys2Proof.Machine

/-- `x[r]`. -/
def State.reg (s : State) (r : Reg8) : Byte :=
  match r with
  | .B => s.regs.b
  | .C => s.regs.c
  | .D => s.regs.d
  | .E => s.regs.e
  | .H => s.regs.h
  | .L => s.regs.l
  | .A => s.regs.a

/-- `x[r] <- v`. -/
def State.setReg (s : State) (r : Reg8) (v : Byte) : State :=
  match r with
  | .B => { s with regs.b := v }
  | .C => { s with regs.c := v }
  | .D => { s with regs.d := v }
  | .E => { s with regs.e := v }
  | .H => { s with regs.h := v }
  | .L => { s with regs.l := v }
  | .A => { s with regs.a := v }

/-- First-named, that is high, register of a pair (10_state.md R12). -/
def Pair.hiReg : Pair → Reg8
  | .BC => .B
  | .DE => .D
  | .HL => .H

/-- Second-named, that is low, register of a pair (10_state.md R12). -/
def Pair.loReg : Pair → Reg8
  | .BC => .C
  | .DE => .E
  | .HL => .L

/-- A pair read through its two registers (10_state.md R12). -/
def State.pair (s : State) (p : Pair) : Word := joinBytes (s.reg (Pair.hiReg p)) (s.reg (Pair.loReg p))

/-- A pair written through its two registers and nothing else (10_state.md R12). -/
def State.setPair (s : State) (p : Pair) (w : Word) : State :=
  (s.setReg (Pair.hiReg p) (hiByte w)).setReg (Pair.loReg p) (loByte w)

/-- `AF = A : F`. -/
def State.af (s : State) : Word := joinBytes s.regs.a s.regs.f

/-- A write to `AF`: the low nibble of the byte for `F` is forced to zero (10_state.md R12, R13; 42_stack.md R204). -/
def State.setAF (s : State) (w : Word) : State :=
  { s with regs.a := hiByte w, regs.f := loByte w &&& 0xF0 }

/-- `HL`, the address of every `(HL)` form. -/
def State.hl (s : State) : Word := s.pair .HL

/-- The byte of an `r8` operand, and the state after reading it: the `(HL)` form reads the bus (30_encoding.md R124). -/
def readOpnd (o : Opnd8) (s : State) : Byte × State :=
  match o with
  | .reg r => (s.reg r, s)
  | .mHL => busRead s.hl s

/-- Write an `r8` operand: the `(HL)` form writes the bus (30_encoding.md R124). -/
def writeOpnd (o : Opnd8) (v : Byte) (s : State) : State :=
  match o with
  | .reg r => s.setReg r v
  | .mHL => busWrite s.hl v s

end Sys2Proof.Machine
end

