-- ==== Sys2Proof/Machine/Ops.lean ====
section
/-! DEFINITION. The shared operations of the instructions: the program counter, the stack primitives, the Halted result. -/

namespace Sys2Proof.Machine

/-- `PC <- target`. -/
def State.jump (s : State) (target : Word) : State := { s with regs.pc := target }

/-- `PC <- (A0 + n) mod 0x10000`: `PC` still holds `A0` while an instruction runs (10_state.md R16, 30_encoding.md R123;
log 12). -/
def State.advance (s : State) (n : Nat) : State := s.jump (s.regs.pc + BitVec.ofNat 16 n)

/-- `SP <- w`. -/
def State.setSP (s : State) (w : Word) : State := { s with regs.sp := w }

/-- `IME <- b`. -/
def State.setIME (s : State) (b : Bool) : State := { s with regs.ime := b }

/-- One byte onto the stack: decrement `SP`, then store. -/
def pushByte (v : Byte) (s : State) : State := busWrite (s.regs.sp - 1) v (s.setSP (s.regs.sp - 1))

/-- `Push16(w)` (42_stack.md R200): the high byte at `SP-1`, then the low byte at `SP-2`. -/
def push16 (w : Word) (s : State) : State := pushByte (loByte w) (pushByte (hiByte w) s)

/-- One byte off the stack: read, then increment `SP`. -/
def popByte (s : State) : Byte × State :=
  let (v, s1) := busRead s.regs.sp s
  (v, s1.setSP (s1.regs.sp + 1))

/-- `Pop16()` (42_stack.md R201): the low byte from `SP`, then the high byte from `SP+1`. -/
def pop16 (s : State) : Word × State :=
  let (l, s1) := popByte s
  let (h, s2) := popByte s1
  (joinBytes h l, s2)

/-- `raise UnmappedOpcode(table, byte, A0)` (60_exceptions.md R270): the one exception of the CORE. It writes nothing;
the step ends with the result Halted. There is no return from it (R274). -/
def raiseUnmappedOpcode (table : OpcodeTable) (byte : Byte) (s : State) : Result :=
  .fault (.unmappedOpcode table byte s.regs.pc s)

end Sys2Proof.Machine
end

