-- ==== Sys2Proof/Machine/Alu.lean ====
section
/-! DEFINITION. The 8-bit ALU (spec/43_alu8.md R210 to R227). -/

namespace Sys2Proof.Machine

/-- `INC` on a register or the byte at `HL` (R211, R212): flags from the byte that was read. -/
def incOpnd (o : Opnd8) (s : State) : Result :=
  let (v, s1) := readOpnd o s
  .next (((writeOpnd o (incByte v) s1).setIncFlags v).advance 1)

/-- `DEC` on a register or the byte at `HL` (R213, R214). -/
def decOpnd (o : Opnd8) (s : State) : Result :=
  let (v, s1) := readOpnd o s
  .next (((writeOpnd o (decByte v) s1).setDecFlags v).advance 1)

/-- What an operation does to `A` and the flags, given its second operand (R215, R218, R221, R224). -/
def aluOnA (op : AluOp) (b : Byte) (s : State) : State :=
  let a := s.reg .A
  match op with
  | .add => (s.setReg .A (addByte a b)).setAddFlags a b
  | .sub => (s.setReg .A (subByte a b)).setSubFlags a b
  | .xor => (s.setReg .A (a ^^^ b)).setXorFlags (a ^^^ b)
  | .cp => s.setSubFlags a b

/-- `ADD`, `SUB`, `XOR`, `CP` with a register or the byte at `HL`. -/
def aluOpnd (op : AluOp) (o : Opnd8) (s : State) : Result :=
  let (b, s1) := readOpnd o s
  .next ((aluOnA op b s1).advance 1)

/-- `ADD`, `SUB`, `XOR`, `CP` with an immediate. -/
def aluImm (op : AluOp) (b : Byte) (s : State) : Result := .next ((aluOnA op b s).advance 2)

/-- `CPL` (R227). -/
def complement (s : State) : Result := .next (((s.setReg .A (~~~(s.reg .A))).setCplFlags).advance 1)

/-- `INC B` (R211). -/
def exec_inc_B (s : State) : Result := incOpnd (.reg .B) s

/-- `DEC B` (R213). -/
def exec_dec_B (s : State) : Result := decOpnd (.reg .B) s

/-- `INC C` (R211). -/
def exec_inc_C (s : State) : Result := incOpnd (.reg .C) s

/-- `DEC C` (R213). -/
def exec_dec_C (s : State) : Result := decOpnd (.reg .C) s

/-- `INC D` (R211). -/
def exec_inc_D (s : State) : Result := incOpnd (.reg .D) s

/-- `DEC D` (R213). -/
def exec_dec_D (s : State) : Result := decOpnd (.reg .D) s

/-- `INC E` (R211). -/
def exec_inc_E (s : State) : Result := incOpnd (.reg .E) s

/-- `DEC E` (R213). -/
def exec_dec_E (s : State) : Result := decOpnd (.reg .E) s

/-- `INC H` (R211). -/
def exec_inc_H (s : State) : Result := incOpnd (.reg .H) s

/-- `DEC H` (R213). -/
def exec_dec_H (s : State) : Result := decOpnd (.reg .H) s

/-- `INC L` (R211). -/
def exec_inc_L (s : State) : Result := incOpnd (.reg .L) s

/-- `DEC L` (R213). -/
def exec_dec_L (s : State) : Result := decOpnd (.reg .L) s

/-- `CPL` (R227). -/
def exec_cpl (s : State) : Result := complement s

/-- `INC (HL)` (R212). -/
def exec_inc_mHL (s : State) : Result := incOpnd .mHL s

/-- `DEC (HL)` (R214). -/
def exec_dec_mHL (s : State) : Result := decOpnd .mHL s

/-- `INC A` (R211). -/
def exec_inc_A (s : State) : Result := incOpnd (.reg .A) s

/-- `DEC A` (R213). -/
def exec_dec_A (s : State) : Result := decOpnd (.reg .A) s

/-- `ADD A,B` (R215). -/
def exec_add_A_B (s : State) : Result := aluOpnd .add (.reg .B) s

/-- `ADD A,C` (R215). -/
def exec_add_A_C (s : State) : Result := aluOpnd .add (.reg .C) s

/-- `ADD A,D` (R215). -/
def exec_add_A_D (s : State) : Result := aluOpnd .add (.reg .D) s

/-- `ADD A,E` (R215). -/
def exec_add_A_E (s : State) : Result := aluOpnd .add (.reg .E) s

/-- `ADD A,H` (R215). -/
def exec_add_A_H (s : State) : Result := aluOpnd .add (.reg .H) s

/-- `ADD A,L` (R215). -/
def exec_add_A_L (s : State) : Result := aluOpnd .add (.reg .L) s

/-- `ADD A,(HL)` (R216). -/
def exec_add_A_mHL (s : State) : Result := aluOpnd .add .mHL s

/-- `ADD A,A` (R215). -/
def exec_add_A_A (s : State) : Result := aluOpnd .add (.reg .A) s

/-- `SUB B` (R218). -/
def exec_sub_B (s : State) : Result := aluOpnd .sub (.reg .B) s

/-- `SUB C` (R218). -/
def exec_sub_C (s : State) : Result := aluOpnd .sub (.reg .C) s

/-- `SUB D` (R218). -/
def exec_sub_D (s : State) : Result := aluOpnd .sub (.reg .D) s

/-- `SUB E` (R218). -/
def exec_sub_E (s : State) : Result := aluOpnd .sub (.reg .E) s

/-- `SUB H` (R218). -/
def exec_sub_H (s : State) : Result := aluOpnd .sub (.reg .H) s

/-- `SUB L` (R218). -/
def exec_sub_L (s : State) : Result := aluOpnd .sub (.reg .L) s

/-- `SUB (HL)` (R219). -/
def exec_sub_mHL (s : State) : Result := aluOpnd .sub .mHL s

/-- `SUB A` (R218). -/
def exec_sub_A (s : State) : Result := aluOpnd .sub (.reg .A) s

/-- `XOR B` (R224). -/
def exec_xor_B (s : State) : Result := aluOpnd .xor (.reg .B) s

/-- `XOR C` (R224). -/
def exec_xor_C (s : State) : Result := aluOpnd .xor (.reg .C) s

/-- `XOR D` (R224). -/
def exec_xor_D (s : State) : Result := aluOpnd .xor (.reg .D) s

/-- `XOR E` (R224). -/
def exec_xor_E (s : State) : Result := aluOpnd .xor (.reg .E) s

/-- `XOR H` (R224). -/
def exec_xor_H (s : State) : Result := aluOpnd .xor (.reg .H) s

/-- `XOR L` (R224). -/
def exec_xor_L (s : State) : Result := aluOpnd .xor (.reg .L) s

/-- `XOR (HL)` (R225). -/
def exec_xor_mHL (s : State) : Result := aluOpnd .xor .mHL s

/-- `XOR A` (R224). -/
def exec_xor_A (s : State) : Result := aluOpnd .xor (.reg .A) s

/-- `CP B` (R221). -/
def exec_cp_B (s : State) : Result := aluOpnd .cp (.reg .B) s

/-- `CP C` (R221). -/
def exec_cp_C (s : State) : Result := aluOpnd .cp (.reg .C) s

/-- `CP D` (R221). -/
def exec_cp_D (s : State) : Result := aluOpnd .cp (.reg .D) s

/-- `CP E` (R221). -/
def exec_cp_E (s : State) : Result := aluOpnd .cp (.reg .E) s

/-- `CP H` (R221). -/
def exec_cp_H (s : State) : Result := aluOpnd .cp (.reg .H) s

/-- `CP L` (R221). -/
def exec_cp_L (s : State) : Result := aluOpnd .cp (.reg .L) s

/-- `CP (HL)` (R222). -/
def exec_cp_mHL (s : State) : Result := aluOpnd .cp .mHL s

/-- `CP A` (R221). -/
def exec_cp_A (s : State) : Result := aluOpnd .cp (.reg .A) s

/-- `ADD A,d8` (R217). -/
def exec_add_A_d8 (d8 : Byte) (s : State) : Result := aluImm .add d8 s

/-- `SUB d8` (R220). -/
def exec_sub_d8 (d8 : Byte) (s : State) : Result := aluImm .sub d8 s

/-- `XOR d8` (R226). -/
def exec_xor_d8 (d8 : Byte) (s : State) : Result := aluImm .xor d8 s

/-- `CP d8` (R223). -/
def exec_cp_d8 (d8 : Byte) (s : State) : Result := aluImm .cp d8 s

end Sys2Proof.Machine
end

