-- ==== Sys2Proof/Machine/Control.lean ====
section
/-! DEFINITION. Control transfer (spec/41_control_transfer.md R180 to R187). No flag is written. -/

namespace Sys2Proof.Machine

/-- `PC <- a16` (R181). -/
def jumpAbs (target : Word) (s : State) : Result := .next (s.jump target)

/-- Push the address of the instruction after this one of `n` bytes, then jump (R182, R184). -/
def call (n : Nat) (target : Word) (s : State) : Result :=
  .next ((push16 (s.regs.pc + BitVec.ofNat 16 n) s).jump target)

/-- `PC <- Pop16()` (R183). -/
def returnOp (s : State) : Result :=
  let (w, s1) := pop16 s
  .next (s1.jump w)

/-- The relative jumps: the offset counts from the address after the two bytes (R180, R185, R186). -/
def jumpRel (taken : Bool) (e8 : Byte) (s : State) : Result :=
  if taken then .next (s.jump (s.regs.pc + 2 + sext16 e8)) else .next (s.advance 2)

/-- `JR e8` (R185). -/
def exec_jr_e8 (e8 : Byte) (s : State) : Result := jumpRel true e8 s

/-- `JR NZ,e8` (R186). -/
def exec_jr_NZ_e8 (e8 : Byte) (s : State) : Result := jumpRel (s.holds .NZ) e8 s

/-- `JR Z,e8` (R186). -/
def exec_jr_Z_e8 (e8 : Byte) (s : State) : Result := jumpRel (s.holds .Z) e8 s

/-- `JR NC,e8` (R186). -/
def exec_jr_NC_e8 (e8 : Byte) (s : State) : Result := jumpRel (s.holds .NC) e8 s

/-- `JR C,e8` (R186). -/
def exec_jr_C_e8 (e8 : Byte) (s : State) : Result := jumpRel (s.holds .C) e8 s

/-- `JP a16` (R181). -/
def exec_jp_a16 (a16 : Word) (s : State) : Result := jumpAbs a16 s

/-- `RST 0x00` (R184). -/
def exec_rst_0x00 (s : State) : Result := call 1 0x00#16 s

/-- `RET` (R183). -/
def exec_ret (s : State) : Result := returnOp s

/-- `CALL a16` (R182). -/
def exec_call_a16 (a16 : Word) (s : State) : Result := call 3 a16 s

/-- `RST 0x08` (R184). -/
def exec_rst_0x08 (s : State) : Result := call 1 0x08#16 s

/-- `RST 0x10` (R184). -/
def exec_rst_0x10 (s : State) : Result := call 1 0x10#16 s

/-- `RST 0x18` (R184). -/
def exec_rst_0x18 (s : State) : Result := call 1 0x18#16 s

/-- `RST 0x20` (R184). -/
def exec_rst_0x20 (s : State) : Result := call 1 0x20#16 s

/-- `RST 0x28` (R184). -/
def exec_rst_0x28 (s : State) : Result := call 1 0x28#16 s

/-- `RST 0x30` (R184). -/
def exec_rst_0x30 (s : State) : Result := call 1 0x30#16 s

/-- `RST 0x38` (R184). -/
def exec_rst_0x38 (s : State) : Result := call 1 0x38#16 s

end Sys2Proof.Machine
end

