-- ==== Sys2Proof/Machine/Loads.lean ====
section
/-! DEFINITION. NOP and the loads and stores (spec/40_nop_loads.md R160 to R169). None of them reads or writes a flag. -/

namespace Sys2Proof.Machine

/-- `PC <- A0 + 1` and nothing else (R160). -/
def nopOp (s : State) : Result := .next (s.advance 1)

/-- `x[d] <- x[r]` (R161). -/
def loadReg (d r : Reg8) (s : State) : Result := .next ((s.setReg d (s.reg r)).advance 1)

/-- `x[d] <- MemRead(HL, 1)`: the address is formed before `d` is written (R162). -/
def loadFromHL (d : Reg8) (s : State) : Result :=
  let (v, s1) := busRead s.hl s
  .next ((s1.setReg d v).advance 1)

/-- `MemWrite(HL, 1, x[r])` (R163). -/
def storeToHL (r : Reg8) (s : State) : Result := .next ((busWrite s.hl (s.reg r) s).advance 1)

/-- `x[d] <- d8` and `MemWrite(HL, 1, d8)` (R164, R165). -/
def loadImm (d : Opnd8) (v : Byte) (s : State) : Result := .next ((writeOpnd d v s).advance 2)

/-- `rr <- d16` through its two registers (R166). -/
def loadPair (p : Pair) (w : Word) (s : State) : Result := .next ((s.setPair p w).advance 3)

/-- `SP <- d16` (R167). -/
def loadSP (w : Word) (s : State) : Result := .next ((s.setSP w).advance 3)

/-- `A <- MemRead(a16, 1)` (R168). -/
def loadAbs (addr : Word) (s : State) : Result :=
  let (v, s1) := busRead addr s
  .next ((s1.setReg .A v).advance 3)

/-- `MemWrite(a16, 1, A)` (R169). -/
def storeAbs (addr : Word) (s : State) : Result := .next ((busWrite addr (s.reg .A) s).advance 3)

/-- `NOP` (R160). -/
def exec_nop (s : State) : Result := nopOp s

/-- `LD BC,d16` (R166). -/
def exec_ld_BC_d16 (d16 : Word) (s : State) : Result := loadPair .BC d16 s

/-- `LD B,d8` (R164). -/
def exec_ld_B_d8 (d8 : Byte) (s : State) : Result := loadImm (.reg .B) d8 s

/-- `LD C,d8` (R164). -/
def exec_ld_C_d8 (d8 : Byte) (s : State) : Result := loadImm (.reg .C) d8 s

/-- `LD DE,d16` (R166). -/
def exec_ld_DE_d16 (d16 : Word) (s : State) : Result := loadPair .DE d16 s

/-- `LD D,d8` (R164). -/
def exec_ld_D_d8 (d8 : Byte) (s : State) : Result := loadImm (.reg .D) d8 s

/-- `LD E,d8` (R164). -/
def exec_ld_E_d8 (d8 : Byte) (s : State) : Result := loadImm (.reg .E) d8 s

/-- `LD HL,d16` (R166). -/
def exec_ld_HL_d16 (d16 : Word) (s : State) : Result := loadPair .HL d16 s

/-- `LD H,d8` (R164). -/
def exec_ld_H_d8 (d8 : Byte) (s : State) : Result := loadImm (.reg .H) d8 s

/-- `LD L,d8` (R164). -/
def exec_ld_L_d8 (d8 : Byte) (s : State) : Result := loadImm (.reg .L) d8 s

/-- `LD SP,d16` (R167). -/
def exec_ld_SP_d16 (d16 : Word) (s : State) : Result := loadSP d16 s

/-- `LD (HL),d8` (R165). -/
def exec_ld_mHL_d8 (d8 : Byte) (s : State) : Result := loadImm .mHL d8 s

/-- `LD A,d8` (R164). -/
def exec_ld_A_d8 (d8 : Byte) (s : State) : Result := loadImm (.reg .A) d8 s

/-- `LD B,B` (R161). -/
def exec_ld_B_B (s : State) : Result := loadReg .B .B s

/-- `LD B,C` (R161). -/
def exec_ld_B_C (s : State) : Result := loadReg .B .C s

/-- `LD B,D` (R161). -/
def exec_ld_B_D (s : State) : Result := loadReg .B .D s

/-- `LD B,E` (R161). -/
def exec_ld_B_E (s : State) : Result := loadReg .B .E s

/-- `LD B,H` (R161). -/
def exec_ld_B_H (s : State) : Result := loadReg .B .H s

/-- `LD B,L` (R161). -/
def exec_ld_B_L (s : State) : Result := loadReg .B .L s

/-- `LD B,(HL)` (R162). -/
def exec_ld_B_mHL (s : State) : Result := loadFromHL .B s

/-- `LD B,A` (R161). -/
def exec_ld_B_A (s : State) : Result := loadReg .B .A s

/-- `LD C,B` (R161). -/
def exec_ld_C_B (s : State) : Result := loadReg .C .B s

/-- `LD C,C` (R161). -/
def exec_ld_C_C (s : State) : Result := loadReg .C .C s

/-- `LD C,D` (R161). -/
def exec_ld_C_D (s : State) : Result := loadReg .C .D s

/-- `LD C,E` (R161). -/
def exec_ld_C_E (s : State) : Result := loadReg .C .E s

/-- `LD C,H` (R161). -/
def exec_ld_C_H (s : State) : Result := loadReg .C .H s

/-- `LD C,L` (R161). -/
def exec_ld_C_L (s : State) : Result := loadReg .C .L s

/-- `LD C,(HL)` (R162). -/
def exec_ld_C_mHL (s : State) : Result := loadFromHL .C s

/-- `LD C,A` (R161). -/
def exec_ld_C_A (s : State) : Result := loadReg .C .A s

/-- `LD D,B` (R161). -/
def exec_ld_D_B (s : State) : Result := loadReg .D .B s

/-- `LD D,C` (R161). -/
def exec_ld_D_C (s : State) : Result := loadReg .D .C s

/-- `LD D,D` (R161). -/
def exec_ld_D_D (s : State) : Result := loadReg .D .D s

/-- `LD D,E` (R161). -/
def exec_ld_D_E (s : State) : Result := loadReg .D .E s

/-- `LD D,H` (R161). -/
def exec_ld_D_H (s : State) : Result := loadReg .D .H s

/-- `LD D,L` (R161). -/
def exec_ld_D_L (s : State) : Result := loadReg .D .L s

/-- `LD D,(HL)` (R162). -/
def exec_ld_D_mHL (s : State) : Result := loadFromHL .D s

/-- `LD D,A` (R161). -/
def exec_ld_D_A (s : State) : Result := loadReg .D .A s

/-- `LD E,B` (R161). -/
def exec_ld_E_B (s : State) : Result := loadReg .E .B s

/-- `LD E,C` (R161). -/
def exec_ld_E_C (s : State) : Result := loadReg .E .C s

/-- `LD E,D` (R161). -/
def exec_ld_E_D (s : State) : Result := loadReg .E .D s

/-- `LD E,E` (R161). -/
def exec_ld_E_E (s : State) : Result := loadReg .E .E s

/-- `LD E,H` (R161). -/
def exec_ld_E_H (s : State) : Result := loadReg .E .H s

/-- `LD E,L` (R161). -/
def exec_ld_E_L (s : State) : Result := loadReg .E .L s

/-- `LD E,(HL)` (R162). -/
def exec_ld_E_mHL (s : State) : Result := loadFromHL .E s

/-- `LD E,A` (R161). -/
def exec_ld_E_A (s : State) : Result := loadReg .E .A s

/-- `LD H,B` (R161). -/
def exec_ld_H_B (s : State) : Result := loadReg .H .B s

/-- `LD H,C` (R161). -/
def exec_ld_H_C (s : State) : Result := loadReg .H .C s

/-- `LD H,D` (R161). -/
def exec_ld_H_D (s : State) : Result := loadReg .H .D s

/-- `LD H,E` (R161). -/
def exec_ld_H_E (s : State) : Result := loadReg .H .E s

/-- `LD H,H` (R161). -/
def exec_ld_H_H (s : State) : Result := loadReg .H .H s

/-- `LD H,L` (R161). -/
def exec_ld_H_L (s : State) : Result := loadReg .H .L s

/-- `LD H,(HL)` (R162). -/
def exec_ld_H_mHL (s : State) : Result := loadFromHL .H s

/-- `LD H,A` (R161). -/
def exec_ld_H_A (s : State) : Result := loadReg .H .A s

/-- `LD L,B` (R161). -/
def exec_ld_L_B (s : State) : Result := loadReg .L .B s

/-- `LD L,C` (R161). -/
def exec_ld_L_C (s : State) : Result := loadReg .L .C s

/-- `LD L,D` (R161). -/
def exec_ld_L_D (s : State) : Result := loadReg .L .D s

/-- `LD L,E` (R161). -/
def exec_ld_L_E (s : State) : Result := loadReg .L .E s

/-- `LD L,H` (R161). -/
def exec_ld_L_H (s : State) : Result := loadReg .L .H s

/-- `LD L,L` (R161). -/
def exec_ld_L_L (s : State) : Result := loadReg .L .L s

/-- `LD L,(HL)` (R162). -/
def exec_ld_L_mHL (s : State) : Result := loadFromHL .L s

/-- `LD L,A` (R161). -/
def exec_ld_L_A (s : State) : Result := loadReg .L .A s

/-- `LD (HL),B` (R163). -/
def exec_ld_mHL_B (s : State) : Result := storeToHL .B s

/-- `LD (HL),C` (R163). -/
def exec_ld_mHL_C (s : State) : Result := storeToHL .C s

/-- `LD (HL),D` (R163). -/
def exec_ld_mHL_D (s : State) : Result := storeToHL .D s

/-- `LD (HL),E` (R163). -/
def exec_ld_mHL_E (s : State) : Result := storeToHL .E s

/-- `LD (HL),H` (R163). -/
def exec_ld_mHL_H (s : State) : Result := storeToHL .H s

/-- `LD (HL),L` (R163). -/
def exec_ld_mHL_L (s : State) : Result := storeToHL .L s

/-- `LD (HL),A` (R163). -/
def exec_ld_mHL_A (s : State) : Result := storeToHL .A s

/-- `LD A,B` (R161). -/
def exec_ld_A_B (s : State) : Result := loadReg .A .B s

/-- `LD A,C` (R161). -/
def exec_ld_A_C (s : State) : Result := loadReg .A .C s

/-- `LD A,D` (R161). -/
def exec_ld_A_D (s : State) : Result := loadReg .A .D s

/-- `LD A,E` (R161). -/
def exec_ld_A_E (s : State) : Result := loadReg .A .E s

/-- `LD A,H` (R161). -/
def exec_ld_A_H (s : State) : Result := loadReg .A .H s

/-- `LD A,L` (R161). -/
def exec_ld_A_L (s : State) : Result := loadReg .A .L s

/-- `LD A,(HL)` (R162). -/
def exec_ld_A_mHL (s : State) : Result := loadFromHL .A s

/-- `LD A,A` (R161). -/
def exec_ld_A_A (s : State) : Result := loadReg .A .A s

/-- `LD (a16),A` (R169). -/
def exec_ld_ma16_A (a16 : Word) (s : State) : Result := storeAbs a16 s

/-- `LD A,(a16)` (R168). -/
def exec_ld_A_ma16 (a16 : Word) (s : State) : Result := loadAbs a16 s

end Sys2Proof.Machine
end

