-- ==== Sys2Proof/WellFormed.lean ====
section
/-! DEFINITION. The one check on an instruction: the second byte of the prefix row. Every other operand may take any
value (30_encoding.md R122). -/

namespace Sys2Proof

/-- The 200 unmapped secondary bytes: 0x30 to 0x37 and 0x40 to 0xFF (30_encoding.md R151). -/
def unmappedSecondary (op2 : Byte) : Bool :=
  (decide (0x30 ≤ op2.toNat) && decide (op2.toNat ≤ 0x37)) || decide (0x40 ≤ op2.toNat)

/-- An instruction as the decoder gives it: the prefix row stands for itself only when its second byte is unmapped,
since a mapped pair has a row of its own (44_rotate_shift.md R235; log 8). -/
def Instr.wf : Instr → Bool
  | .prefix_CB op2 => unmappedSecondary op2
  | .nop | .ld_BC_d16 _ | .inc_B | .dec_B | .ld_B_d8 _ | .rlca | .inc_C | .dec_C | .ld_C_d8 _ | .rrca
  | .ld_DE_d16 _ | .inc_D | .dec_D | .ld_D_d8 _ | .rla | .jr_e8 _ | .inc_E | .dec_E | .ld_E_d8 _ | .rra
  | .jr_NZ_e8 _ | .ld_HL_d16 _ | .inc_H | .dec_H | .ld_H_d8 _ | .jr_Z_e8 _ | .inc_L | .dec_L | .ld_L_d8 _ | .cpl
  | .jr_NC_e8 _ | .ld_SP_d16 _ | .inc_mHL | .dec_mHL | .ld_mHL_d8 _ | .jr_C_e8 _ | .inc_A | .dec_A | .ld_A_d8 _
  | .ld_B_B | .ld_B_C | .ld_B_D | .ld_B_E | .ld_B_H | .ld_B_L | .ld_B_mHL | .ld_B_A | .ld_C_B | .ld_C_C | .ld_C_D
  | .ld_C_E | .ld_C_H | .ld_C_L | .ld_C_mHL | .ld_C_A | .ld_D_B | .ld_D_C | .ld_D_D | .ld_D_E | .ld_D_H | .ld_D_L
  | .ld_D_mHL | .ld_D_A | .ld_E_B | .ld_E_C | .ld_E_D | .ld_E_E | .ld_E_H | .ld_E_L | .ld_E_mHL | .ld_E_A
  | .ld_H_B | .ld_H_C | .ld_H_D | .ld_H_E | .ld_H_H | .ld_H_L | .ld_H_mHL | .ld_H_A | .ld_L_B | .ld_L_C | .ld_L_D
  | .ld_L_E | .ld_L_H | .ld_L_L | .ld_L_mHL | .ld_L_A | .ld_mHL_B | .ld_mHL_C | .ld_mHL_D | .ld_mHL_E | .ld_mHL_H
  | .ld_mHL_L | .ld_mHL_A | .ld_A_B | .ld_A_C | .ld_A_D | .ld_A_E | .ld_A_H | .ld_A_L | .ld_A_mHL | .ld_A_A
  | .add_A_B | .add_A_C | .add_A_D | .add_A_E | .add_A_H | .add_A_L | .add_A_mHL | .add_A_A | .sub_B | .sub_C
  | .sub_D | .sub_E | .sub_H | .sub_L | .sub_mHL | .sub_A | .xor_B | .xor_C | .xor_D | .xor_E | .xor_H | .xor_L
  | .xor_mHL | .xor_A | .cp_B | .cp_C | .cp_D | .cp_E | .cp_H | .cp_L | .cp_mHL | .cp_A | .pop_BC | .jp_a16 _
  | .push_BC | .add_A_d8 _ | .rst_0x00 | .ret | .call_a16 _ | .rst_0x08 | .pop_DE | .push_DE | .sub_d8 _
  | .rst_0x10 | .rst_0x18 | .pop_HL | .push_HL | .rst_0x20 | .ld_ma16_A _ | .xor_d8 _ | .rst_0x28 | .pop_AF | .di
  | .push_AF | .rst_0x30 | .ld_A_ma16 _ | .ei | .cp_d8 _ | .rst_0x38 | .rlc_B | .rlc_C | .rlc_D | .rlc_E | .rlc_H
  | .rlc_L | .rlc_mHL | .rlc_A | .rrc_B | .rrc_C | .rrc_D | .rrc_E | .rrc_H | .rrc_L | .rrc_mHL | .rrc_A | .rl_B
  | .rl_C | .rl_D | .rl_E | .rl_H | .rl_L | .rl_mHL | .rl_A | .rr_B | .rr_C | .rr_D | .rr_E | .rr_H | .rr_L
  | .rr_mHL | .rr_A | .sla_B | .sla_C | .sla_D | .sla_E | .sla_H | .sla_L | .sla_mHL | .sla_A | .sra_B | .sra_C
  | .sra_D | .sra_E | .sra_H | .sra_L | .sra_mHL | .sra_A | .srl_B | .srl_C | .srl_D | .srl_E | .srl_H | .srl_L
  | .srl_mHL | .srl_A => true

end Sys2Proof
end

