-- ==== Sys2Proof/Decode.lean ====
section
/-! DEFINITION. Decoding by the bit fields of 30_encoding.md R120 to R141, total on any bytes, and the encoder, written
row by row from spec/opcode_table.json. -/

namespace Sys2Proof

open Machine (fieldX fieldY fieldZ joinBytes hiByte loByte)

/-! ## The rows by operand code: which constructor a family's operands name -/

/-- `LD d,s` on registers: byte `0x40 | d<<3 | s` (40_nop_loads.md R161). -/
def Instr.ofLdReg : Reg8 → Reg8 → Instr
  | .B, .B => .ld_B_B
  | .B, .C => .ld_B_C
  | .B, .D => .ld_B_D
  | .B, .E => .ld_B_E
  | .B, .H => .ld_B_H
  | .B, .L => .ld_B_L
  | .B, .A => .ld_B_A
  | .C, .B => .ld_C_B
  | .C, .C => .ld_C_C
  | .C, .D => .ld_C_D
  | .C, .E => .ld_C_E
  | .C, .H => .ld_C_H
  | .C, .L => .ld_C_L
  | .C, .A => .ld_C_A
  | .D, .B => .ld_D_B
  | .D, .C => .ld_D_C
  | .D, .D => .ld_D_D
  | .D, .E => .ld_D_E
  | .D, .H => .ld_D_H
  | .D, .L => .ld_D_L
  | .D, .A => .ld_D_A
  | .E, .B => .ld_E_B
  | .E, .C => .ld_E_C
  | .E, .D => .ld_E_D
  | .E, .E => .ld_E_E
  | .E, .H => .ld_E_H
  | .E, .L => .ld_E_L
  | .E, .A => .ld_E_A
  | .H, .B => .ld_H_B
  | .H, .C => .ld_H_C
  | .H, .D => .ld_H_D
  | .H, .E => .ld_H_E
  | .H, .H => .ld_H_H
  | .H, .L => .ld_H_L
  | .H, .A => .ld_H_A
  | .L, .B => .ld_L_B
  | .L, .C => .ld_L_C
  | .L, .D => .ld_L_D
  | .L, .E => .ld_L_E
  | .L, .H => .ld_L_H
  | .L, .L => .ld_L_L
  | .L, .A => .ld_L_A
  | .A, .B => .ld_A_B
  | .A, .C => .ld_A_C
  | .A, .D => .ld_A_D
  | .A, .E => .ld_A_E
  | .A, .H => .ld_A_H
  | .A, .L => .ld_A_L
  | .A, .A => .ld_A_A

/-- `LD d,(HL)`: byte `0x46 | d<<3` (R162). -/
def Instr.ofLdFromHL : Reg8 → Instr
  | .B => .ld_B_mHL
  | .C => .ld_C_mHL
  | .D => .ld_D_mHL
  | .E => .ld_E_mHL
  | .H => .ld_H_mHL
  | .L => .ld_L_mHL
  | .A => .ld_A_mHL

/-- `LD (HL),s`: byte `0x70 | s` (R163). -/
def Instr.ofLdToHL : Reg8 → Instr
  | .B => .ld_mHL_B
  | .C => .ld_mHL_C
  | .D => .ld_mHL_D
  | .E => .ld_mHL_E
  | .H => .ld_mHL_H
  | .L => .ld_mHL_L
  | .A => .ld_mHL_A

/-- `LD d,d8` and `LD (HL),d8`: byte 0 `0x06 | d<<3` (R164, R165). -/
def Instr.ofLdImm : Opnd8 → Byte → Instr
  | .reg .B, d8 => .ld_B_d8 d8
  | .reg .C, d8 => .ld_C_d8 d8
  | .reg .D, d8 => .ld_D_d8 d8
  | .reg .E, d8 => .ld_E_d8 d8
  | .reg .H, d8 => .ld_H_d8 d8
  | .reg .L, d8 => .ld_L_d8 d8
  | .mHL, d8 => .ld_mHL_d8 d8
  | .reg .A, d8 => .ld_A_d8 d8

/-- `LD rr,d16`: byte 0 `0x01 | p<<4` (R166). -/
def Instr.ofLdPair : Pair → Word → Instr
  | .BC, d16 => .ld_BC_d16 d16
  | .DE, d16 => .ld_DE_d16 d16
  | .HL, d16 => .ld_HL_d16 d16

/-- `INC`: byte `0x04 | r<<3` (43_alu8.md R211, R212). -/
def Instr.ofInc : Opnd8 → Instr
  | .reg .B => .inc_B
  | .reg .C => .inc_C
  | .reg .D => .inc_D
  | .reg .E => .inc_E
  | .reg .H => .inc_H
  | .reg .L => .inc_L
  | .mHL => .inc_mHL
  | .reg .A => .inc_A

/-- `DEC`: byte `0x05 | r<<3` (R213, R214). -/
def Instr.ofDec : Opnd8 → Instr
  | .reg .B => .dec_B
  | .reg .C => .dec_C
  | .reg .D => .dec_D
  | .reg .E => .dec_E
  | .reg .H => .dec_H
  | .reg .L => .dec_L
  | .mHL => .dec_mHL
  | .reg .A => .dec_A

/-- The ALU operations on `A` and a register or `(HL)`: byte `0x80 | op<<3 | r` (30_encoding.md R128). -/
def Instr.ofAlu : AluOp → Opnd8 → Instr
  | .add, .reg .B => .add_A_B
  | .add, .reg .C => .add_A_C
  | .add, .reg .D => .add_A_D
  | .add, .reg .E => .add_A_E
  | .add, .reg .H => .add_A_H
  | .add, .reg .L => .add_A_L
  | .add, .mHL => .add_A_mHL
  | .add, .reg .A => .add_A_A
  | .sub, .reg .B => .sub_B
  | .sub, .reg .C => .sub_C
  | .sub, .reg .D => .sub_D
  | .sub, .reg .E => .sub_E
  | .sub, .reg .H => .sub_H
  | .sub, .reg .L => .sub_L
  | .sub, .mHL => .sub_mHL
  | .sub, .reg .A => .sub_A
  | .xor, .reg .B => .xor_B
  | .xor, .reg .C => .xor_C
  | .xor, .reg .D => .xor_D
  | .xor, .reg .E => .xor_E
  | .xor, .reg .H => .xor_H
  | .xor, .reg .L => .xor_L
  | .xor, .mHL => .xor_mHL
  | .xor, .reg .A => .xor_A
  | .cp, .reg .B => .cp_B
  | .cp, .reg .C => .cp_C
  | .cp, .reg .D => .cp_D
  | .cp, .reg .E => .cp_E
  | .cp, .reg .H => .cp_H
  | .cp, .reg .L => .cp_L
  | .cp, .mHL => .cp_mHL
  | .cp, .reg .A => .cp_A

/-- The ALU operations on `A` and an immediate: byte 0 `0xC6 | op<<3` (R128). -/
def Instr.ofAluImm : AluOp → Byte → Instr
  | .add, d8 => .add_A_d8 d8
  | .sub, d8 => .sub_d8 d8
  | .xor, d8 => .xor_d8 d8
  | .cp, d8 => .cp_d8 d8

/-- The secondary table: `op2 = y<<3 | z` (R129, R141). -/
def Instr.ofRot : RotKind → Opnd8 → Instr
  | .rlc, .reg .B => .rlc_B
  | .rlc, .reg .C => .rlc_C
  | .rlc, .reg .D => .rlc_D
  | .rlc, .reg .E => .rlc_E
  | .rlc, .reg .H => .rlc_H
  | .rlc, .reg .L => .rlc_L
  | .rlc, .mHL => .rlc_mHL
  | .rlc, .reg .A => .rlc_A
  | .rrc, .reg .B => .rrc_B
  | .rrc, .reg .C => .rrc_C
  | .rrc, .reg .D => .rrc_D
  | .rrc, .reg .E => .rrc_E
  | .rrc, .reg .H => .rrc_H
  | .rrc, .reg .L => .rrc_L
  | .rrc, .mHL => .rrc_mHL
  | .rrc, .reg .A => .rrc_A
  | .rl, .reg .B => .rl_B
  | .rl, .reg .C => .rl_C
  | .rl, .reg .D => .rl_D
  | .rl, .reg .E => .rl_E
  | .rl, .reg .H => .rl_H
  | .rl, .reg .L => .rl_L
  | .rl, .mHL => .rl_mHL
  | .rl, .reg .A => .rl_A
  | .rr, .reg .B => .rr_B
  | .rr, .reg .C => .rr_C
  | .rr, .reg .D => .rr_D
  | .rr, .reg .E => .rr_E
  | .rr, .reg .H => .rr_H
  | .rr, .reg .L => .rr_L
  | .rr, .mHL => .rr_mHL
  | .rr, .reg .A => .rr_A
  | .sla, .reg .B => .sla_B
  | .sla, .reg .C => .sla_C
  | .sla, .reg .D => .sla_D
  | .sla, .reg .E => .sla_E
  | .sla, .reg .H => .sla_H
  | .sla, .reg .L => .sla_L
  | .sla, .mHL => .sla_mHL
  | .sla, .reg .A => .sla_A
  | .sra, .reg .B => .sra_B
  | .sra, .reg .C => .sra_C
  | .sra, .reg .D => .sra_D
  | .sra, .reg .E => .sra_E
  | .sra, .reg .H => .sra_H
  | .sra, .reg .L => .sra_L
  | .sra, .mHL => .sra_mHL
  | .sra, .reg .A => .sra_A
  | .srl, .reg .B => .srl_B
  | .srl, .reg .C => .srl_C
  | .srl, .reg .D => .srl_D
  | .srl, .reg .E => .srl_E
  | .srl, .reg .H => .srl_H
  | .srl, .reg .L => .srl_L
  | .srl, .mHL => .srl_mHL
  | .srl, .reg .A => .srl_A

/-- The accumulator forms: bytes 0x07, 0x0F, 0x17, 0x1F (44_rotate_shift.md R231 to R234); the three shifts have none. -/
def Instr.ofRotA : RotKind → Option Instr
  | .rlc => some .rlca
  | .rrc => some .rrca
  | .rl => some .rla
  | .rr => some .rra
  | .sla => none
  | .sra => none
  | .srl => none

/-- `PUSH rr`: byte `0xC5 | p<<4` (42_stack.md R202). -/
def Instr.ofPush : Pair → Instr
  | .BC => .push_BC
  | .DE => .push_DE
  | .HL => .push_HL

/-- `POP rr`: byte `0xC1 | p<<4` (R205). -/
def Instr.ofPop : Pair → Instr
  | .BC => .pop_BC
  | .DE => .pop_DE
  | .HL => .pop_HL

/-- `JR cc,e8`: byte 0 `0x20 | cc<<3` (41_control_transfer.md R186). -/
def Instr.ofJr : Cond → Byte → Instr
  | .NZ, e8 => .jr_NZ_e8 e8
  | .Z, e8 => .jr_Z_e8 e8
  | .NC, e8 => .jr_NC_e8 e8
  | .C, e8 => .jr_C_e8 e8

/-- `RST n`: byte `0xC7 | n`, where `n = 8*y` (41_control_transfer.md R184, 30_encoding.md R131). -/
def Instr.ofRst (y : Fin 8) : Instr :=
  match y with
  | 0 => .rst_0x00
  | 1 => .rst_0x08
  | 2 => .rst_0x10
  | 3 => .rst_0x18
  | 4 => .rst_0x20
  | 5 => .rst_0x28
  | 6 => .rst_0x30
  | 7 => .rst_0x38

/-! ## Operand codes -/

/-- `r8` code (30_encoding.md R124). -/
def opnd8 (code : Nat) : Opnd8 :=
  match code with
  | 0 => .reg .B
  | 1 => .reg .C
  | 2 => .reg .D
  | 3 => .reg .E
  | 4 => .reg .H
  | 5 => .reg .L
  | 6 => .mHL
  | _ => .reg .A

/-- `r16` and `r16stk` codes 0 to 2 (R125, R126); code 3 is `SP` or `AF` and is taken apart where it stands. -/
def pairCode (p : Nat) : Option Pair :=
  match p with
  | 0 => some .BC
  | 1 => some .DE
  | 2 => some .HL
  | _ => none

/-- Condition code (R127). -/
def condCode (cc : Nat) : Cond :=
  match cc with
  | 0 => .NZ
  | 1 => .Z
  | 2 => .NC
  | _ => .C

/-- ALU operation code; codes 1, 3, 4 and 6 are unmapped (R128). -/
def aluCode (y : Nat) : Option AluOp :=
  match y with
  | 0 => some .add
  | 2 => some .sub
  | 5 => some .xor
  | 7 => some .cp
  | _ => none

/-- Secondary operation code; code 6 is unmapped (R129). -/
def rotCode (y : Nat) : Option RotKind :=
  match y with
  | 0 => some .rlc
  | 1 => some .rrc
  | 2 => some .rl
  | 3 => some .rr
  | 4 => some .sla
  | 5 => some .sra
  | 7 => some .srl
  | _ => none

/-! ## The two tables -/

/-- What a primary byte asks for after it: nothing, `d8`/`e8`, `d16`/`a16`, or a secondary opcode (R120). -/
inductive Format
  | op (i : Instr)
  | imm8 (f : Byte → Instr)
  | imm16 (f : Word → Instr)
  | prefixed

/-- Length in bytes of an instruction of this format (R120). -/
def Format.length : Format → Nat
  | .op _ => 1
  | .imm8 _ => 2
  | .imm16 _ => 3
  | .prefixed => 2

/-- Block `x = 0` of the primary table (R140). -/
def primaryBlock0 (y z : Nat) : Option Format :=
  match z with
  | 0 =>
    match y with
    | 0 => some (.op .nop)
    | 3 => some (.imm8 .jr_e8)
    | 4 | 5 | 6 | 7 => some (.imm8 (Instr.ofJr (condCode (y - 4))))
    | _ => none
  | 1 =>
    if y % 2 = 0 then
      match pairCode (y / 2) with
      | some rr => some (.imm16 (Instr.ofLdPair rr))
      | none => some (.imm16 .ld_SP_d16)
    else none
  | 4 => some (.op (Instr.ofInc (opnd8 y)))
  | 5 => some (.op (Instr.ofDec (opnd8 y)))
  | 6 => some (.imm8 (Instr.ofLdImm (opnd8 y)))
  | 7 =>
    match y with
    | 0 => some (.op .rlca)
    | 1 => some (.op .rrca)
    | 2 => some (.op .rla)
    | 3 => some (.op .rra)
    | 5 => some (.op .cpl)
    | _ => none
  | _ => none

/-- Block `x = 1`, the loads between 8-bit operands; 0x76 is unmapped (R140, R150). -/
def primaryBlock1 (y z : Nat) : Option Format :=
  match opnd8 y, opnd8 z with
  | .reg d, .reg s => some (.op (Instr.ofLdReg d s))
  | .reg d, .mHL => some (.op (Instr.ofLdFromHL d))
  | .mHL, .reg s => some (.op (Instr.ofLdToHL s))
  | .mHL, .mHL => none

/-- Block `x = 2`, the ALU operations on an 8-bit operand (R128, R140). -/
def primaryBlock2 (y z : Nat) : Option Format :=
  match aluCode y with
  | some op => some (.op (Instr.ofAlu op (opnd8 z)))
  | none => none

/-- Block `x = 3`: control, stack, immediates (R140). -/
def primaryBlock3 (y z : Nat) : Option Format :=
  match z with
  | 1 =>
    if y % 2 = 0 then
      match pairCode (y / 2) with
      | some rr => some (.op (Instr.ofPop rr))
      | none => some (.op .pop_AF)
    else if y = 1 then some (.op .ret)
    else none
  | 2 =>
    match y with
    | 5 => some (.imm16 .ld_ma16_A)
    | 7 => some (.imm16 .ld_A_ma16)
    | _ => none
  | 3 =>
    match y with
    | 0 => some (.imm16 .jp_a16)
    | 1 => some .prefixed
    | 6 => some (.op .di)
    | 7 => some (.op .ei)
    | _ => none
  | 5 =>
    if y % 2 = 0 then
      match pairCode (y / 2) with
      | some rr => some (.op (Instr.ofPush rr))
      | none => some (.op .push_AF)
    else if y = 1 then some (.imm16 .call_a16)
    else none
  | 6 =>
    match aluCode y with
    | some op => some (.imm8 (Instr.ofAluImm op))
    | none => none
  | 7 => some (.op (Instr.ofRst (Fin.ofNat 8 y)))
  | _ => none

/-- The primary table: what opcode byte `op` is, or nothing where it is unmapped (R140, R150). -/
def primary (op : Byte) : Option Format :=
  match fieldX op with
  | 0 => primaryBlock0 (fieldY op) (fieldZ op)
  | 1 => primaryBlock1 (fieldY op) (fieldZ op)
  | 2 => primaryBlock2 (fieldY op) (fieldZ op)
  | _ => primaryBlock3 (fieldY op) (fieldZ op)

/-- The secondary table: operation and operand of `op2`, or nothing where it is unmapped (R129, R141, R151). -/
def secondary (op2 : Byte) : Option (RotKind × Opnd8) :=
  if fieldX op2 = 0 then
    match rotCode (fieldY op2) with
    | some k => some (k, opnd8 (fieldZ op2))
    | none => none
  else none

/-- How many bytes the step fetches for an instruction that starts with `op`: the first byte alone decides it (R122).
An unmapped byte is fetched and nothing after it (60_exceptions.md R272). -/
def fetchLength (op : Byte) : Nat :=
  match primary op with
  | some f => f.length
  | none => 1

/-! ## Decoding -/

/-- Why bytes are no instruction. -/
inductive DecodeError
  /-- The first byte is unmapped in the primary table (30_encoding.md R150). -/
  | unmappedPrimary (op : Byte)
  /-- The bytes end before the instruction does. -/
  | truncated
  deriving DecidableEq, Repr

/-- The instruction of the prefix byte followed by `op2`: the row of the pair, or the prefix row itself where the pair
has none (44_rotate_shift.md R235; log 8). -/
def decodePrefixed (op2 : Byte) : Instr :=
  match secondary op2 with
  | some (k, o) => Instr.ofRot k o
  | none => .prefix_CB op2

/-- Decode the instruction at the head of a byte list; answer it with the bytes after it (R121, R130). -/
def decode (bytes : List Byte) : Except DecodeError (Instr × List Byte) :=
  match bytes with
  | [] => .error .truncated
  | op :: rest =>
    match primary op, rest with
    | none, _ => .error (.unmappedPrimary op)
    | some (.op i), _ => .ok (i, rest)
    | some (.imm8 f), b1 :: more => .ok (f b1, more)
    | some (.imm16 f), b1 :: b2 :: more => .ok (f (joinBytes b2 b1), more)
    | some .prefixed, b1 :: more => .ok (decodePrefixed b1, more)
    | some _, _ => .error .truncated

/-! ## Encoding, row by row -/

/-- An opcode byte followed by a 16-bit operand, low byte first (R130). -/
def encode16 (op : Byte) (w : Word) : List Byte := [op, loByte w, hiByte w]

/-- The bytes of an instruction, first byte at the lowest address (spec/opcode_table.json, R154). -/
def encode : Instr → List Byte
  | .nop => [0x00]
  | .ld_BC_d16 d16 => encode16 0x01 d16
  | .inc_B => [0x04]
  | .dec_B => [0x05]
  | .ld_B_d8 d8 => [0x06, d8]
  | .rlca => [0x07]
  | .inc_C => [0x0C]
  | .dec_C => [0x0D]
  | .ld_C_d8 d8 => [0x0E, d8]
  | .rrca => [0x0F]
  | .ld_DE_d16 d16 => encode16 0x11 d16
  | .inc_D => [0x14]
  | .dec_D => [0x15]
  | .ld_D_d8 d8 => [0x16, d8]
  | .rla => [0x17]
  | .jr_e8 e8 => [0x18, e8]
  | .inc_E => [0x1C]
  | .dec_E => [0x1D]
  | .ld_E_d8 d8 => [0x1E, d8]
  | .rra => [0x1F]
  | .jr_NZ_e8 e8 => [0x20, e8]
  | .ld_HL_d16 d16 => encode16 0x21 d16
  | .inc_H => [0x24]
  | .dec_H => [0x25]
  | .ld_H_d8 d8 => [0x26, d8]
  | .jr_Z_e8 e8 => [0x28, e8]
  | .inc_L => [0x2C]
  | .dec_L => [0x2D]
  | .ld_L_d8 d8 => [0x2E, d8]
  | .cpl => [0x2F]
  | .jr_NC_e8 e8 => [0x30, e8]
  | .ld_SP_d16 d16 => encode16 0x31 d16
  | .inc_mHL => [0x34]
  | .dec_mHL => [0x35]
  | .ld_mHL_d8 d8 => [0x36, d8]
  | .jr_C_e8 e8 => [0x38, e8]
  | .inc_A => [0x3C]
  | .dec_A => [0x3D]
  | .ld_A_d8 d8 => [0x3E, d8]
  | .ld_B_B => [0x40]
  | .ld_B_C => [0x41]
  | .ld_B_D => [0x42]
  | .ld_B_E => [0x43]
  | .ld_B_H => [0x44]
  | .ld_B_L => [0x45]
  | .ld_B_mHL => [0x46]
  | .ld_B_A => [0x47]
  | .ld_C_B => [0x48]
  | .ld_C_C => [0x49]
  | .ld_C_D => [0x4A]
  | .ld_C_E => [0x4B]
  | .ld_C_H => [0x4C]
  | .ld_C_L => [0x4D]
  | .ld_C_mHL => [0x4E]
  | .ld_C_A => [0x4F]
  | .ld_D_B => [0x50]
  | .ld_D_C => [0x51]
  | .ld_D_D => [0x52]
  | .ld_D_E => [0x53]
  | .ld_D_H => [0x54]
  | .ld_D_L => [0x55]
  | .ld_D_mHL => [0x56]
  | .ld_D_A => [0x57]
  | .ld_E_B => [0x58]
  | .ld_E_C => [0x59]
  | .ld_E_D => [0x5A]
  | .ld_E_E => [0x5B]
  | .ld_E_H => [0x5C]
  | .ld_E_L => [0x5D]
  | .ld_E_mHL => [0x5E]
  | .ld_E_A => [0x5F]
  | .ld_H_B => [0x60]
  | .ld_H_C => [0x61]
  | .ld_H_D => [0x62]
  | .ld_H_E => [0x63]
  | .ld_H_H => [0x64]
  | .ld_H_L => [0x65]
  | .ld_H_mHL => [0x66]
  | .ld_H_A => [0x67]
  | .ld_L_B => [0x68]
  | .ld_L_C => [0x69]
  | .ld_L_D => [0x6A]
  | .ld_L_E => [0x6B]
  | .ld_L_H => [0x6C]
  | .ld_L_L => [0x6D]
  | .ld_L_mHL => [0x6E]
  | .ld_L_A => [0x6F]
  | .ld_mHL_B => [0x70]
  | .ld_mHL_C => [0x71]
  | .ld_mHL_D => [0x72]
  | .ld_mHL_E => [0x73]
  | .ld_mHL_H => [0x74]
  | .ld_mHL_L => [0x75]
  | .ld_mHL_A => [0x77]
  | .ld_A_B => [0x78]
  | .ld_A_C => [0x79]
  | .ld_A_D => [0x7A]
  | .ld_A_E => [0x7B]
  | .ld_A_H => [0x7C]
  | .ld_A_L => [0x7D]
  | .ld_A_mHL => [0x7E]
  | .ld_A_A => [0x7F]
  | .add_A_B => [0x80]
  | .add_A_C => [0x81]
  | .add_A_D => [0x82]
  | .add_A_E => [0x83]
  | .add_A_H => [0x84]
  | .add_A_L => [0x85]
  | .add_A_mHL => [0x86]
  | .add_A_A => [0x87]
  | .sub_B => [0x90]
  | .sub_C => [0x91]
  | .sub_D => [0x92]
  | .sub_E => [0x93]
  | .sub_H => [0x94]
  | .sub_L => [0x95]
  | .sub_mHL => [0x96]
  | .sub_A => [0x97]
  | .xor_B => [0xA8]
  | .xor_C => [0xA9]
  | .xor_D => [0xAA]
  | .xor_E => [0xAB]
  | .xor_H => [0xAC]
  | .xor_L => [0xAD]
  | .xor_mHL => [0xAE]
  | .xor_A => [0xAF]
  | .cp_B => [0xB8]
  | .cp_C => [0xB9]
  | .cp_D => [0xBA]
  | .cp_E => [0xBB]
  | .cp_H => [0xBC]
  | .cp_L => [0xBD]
  | .cp_mHL => [0xBE]
  | .cp_A => [0xBF]
  | .pop_BC => [0xC1]
  | .jp_a16 a16 => encode16 0xC3 a16
  | .push_BC => [0xC5]
  | .add_A_d8 d8 => [0xC6, d8]
  | .rst_0x00 => [0xC7]
  | .ret => [0xC9]
  | .prefix_CB op2 => [0xCB, op2]
  | .call_a16 a16 => encode16 0xCD a16
  | .rst_0x08 => [0xCF]
  | .pop_DE => [0xD1]
  | .push_DE => [0xD5]
  | .sub_d8 d8 => [0xD6, d8]
  | .rst_0x10 => [0xD7]
  | .rst_0x18 => [0xDF]
  | .pop_HL => [0xE1]
  | .push_HL => [0xE5]
  | .rst_0x20 => [0xE7]
  | .ld_ma16_A a16 => encode16 0xEA a16
  | .xor_d8 d8 => [0xEE, d8]
  | .rst_0x28 => [0xEF]
  | .pop_AF => [0xF1]
  | .di => [0xF3]
  | .push_AF => [0xF5]
  | .rst_0x30 => [0xF7]
  | .ld_A_ma16 a16 => encode16 0xFA a16
  | .ei => [0xFB]
  | .cp_d8 d8 => [0xFE, d8]
  | .rst_0x38 => [0xFF]
  | .rlc_B => [0xCB, 0x00]
  | .rlc_C => [0xCB, 0x01]
  | .rlc_D => [0xCB, 0x02]
  | .rlc_E => [0xCB, 0x03]
  | .rlc_H => [0xCB, 0x04]
  | .rlc_L => [0xCB, 0x05]
  | .rlc_mHL => [0xCB, 0x06]
  | .rlc_A => [0xCB, 0x07]
  | .rrc_B => [0xCB, 0x08]
  | .rrc_C => [0xCB, 0x09]
  | .rrc_D => [0xCB, 0x0A]
  | .rrc_E => [0xCB, 0x0B]
  | .rrc_H => [0xCB, 0x0C]
  | .rrc_L => [0xCB, 0x0D]
  | .rrc_mHL => [0xCB, 0x0E]
  | .rrc_A => [0xCB, 0x0F]
  | .rl_B => [0xCB, 0x10]
  | .rl_C => [0xCB, 0x11]
  | .rl_D => [0xCB, 0x12]
  | .rl_E => [0xCB, 0x13]
  | .rl_H => [0xCB, 0x14]
  | .rl_L => [0xCB, 0x15]
  | .rl_mHL => [0xCB, 0x16]
  | .rl_A => [0xCB, 0x17]
  | .rr_B => [0xCB, 0x18]
  | .rr_C => [0xCB, 0x19]
  | .rr_D => [0xCB, 0x1A]
  | .rr_E => [0xCB, 0x1B]
  | .rr_H => [0xCB, 0x1C]
  | .rr_L => [0xCB, 0x1D]
  | .rr_mHL => [0xCB, 0x1E]
  | .rr_A => [0xCB, 0x1F]
  | .sla_B => [0xCB, 0x20]
  | .sla_C => [0xCB, 0x21]
  | .sla_D => [0xCB, 0x22]
  | .sla_E => [0xCB, 0x23]
  | .sla_H => [0xCB, 0x24]
  | .sla_L => [0xCB, 0x25]
  | .sla_mHL => [0xCB, 0x26]
  | .sla_A => [0xCB, 0x27]
  | .sra_B => [0xCB, 0x28]
  | .sra_C => [0xCB, 0x29]
  | .sra_D => [0xCB, 0x2A]
  | .sra_E => [0xCB, 0x2B]
  | .sra_H => [0xCB, 0x2C]
  | .sra_L => [0xCB, 0x2D]
  | .sra_mHL => [0xCB, 0x2E]
  | .sra_A => [0xCB, 0x2F]
  | .srl_B => [0xCB, 0x38]
  | .srl_C => [0xCB, 0x39]
  | .srl_D => [0xCB, 0x3A]
  | .srl_E => [0xCB, 0x3B]
  | .srl_H => [0xCB, 0x3C]
  | .srl_L => [0xCB, 0x3D]
  | .srl_mHL => [0xCB, 0x3E]
  | .srl_A => [0xCB, 0x3F]

/-! ## Words as spec/opcode_table.json numbers them -/

/-- The bytes of a table word, in memory order. Rows of 8 bits hold byte 0. The 16-bit rows of format CB_OP apply "to
`byte0*256 + byte1`" (30_encoding.md R154), so byte 0 is bits 15..8 there; any other word has byte 0 in bits 7..0
(log 9). Three bytes always: the longest instruction, zeros above `nbits`. -/
def tableWordBytes (nbits w : Nat) : List Byte :=
  if nbits = 16 ∧ w / 256 = 0xCB then [0xCB, BitVec.ofNat 8 w, 0]
  else
    let v := w % 2 ^ nbits
    [BitVec.ofNat 8 v, BitVec.ofNat 8 (v / 256), BitVec.ofNat 8 (v / 65536)]

/-- The instruction the decoder reads from a table word. -/
def decodeTableWord (nbits w : Nat) : Option Instr :=
  match decode (tableWordBytes nbits w) with
  | .ok (i, _) => some i
  | .error _ => none

end Sys2Proof
end

