-- ==== Sys2Proof/Machine/Rotate.lean ====
section
/-! DEFINITION. Rotates and shifts (spec/44_rotate_shift.md R230 to R249). -/

namespace Sys2Proof.Machine

/-- The secondary-table instructions: read, rotate, write back, flags from the result (R235 to R249). -/
def rotateOpnd (k : RotKind) (o : Opnd8) (s : State) : Result :=
  let (v, s1) := readOpnd o s
  let r := rotResult k v s.flagC
  .next (((writeOpnd o r s1).setRotFlags r (rotOut k v)).advance 2)

/-- The accumulator forms, one byte long (R231 to R234). -/
def rotateA (k : RotKind) (s : State) : Result :=
  let v := s.reg .A
  let r := rotResult k v s.flagC
  .next (((s.setReg .A r).setRotFlags r (rotOut k v)).advance 1)

/-- The dispatch wrapper of the prefix byte with second byte `op2` (R235): the secondary instruction, or Halted. -/
def dispatchPrefixed (op2 : Byte) (s : State) : Result :=
  match secondary op2 with
  | some (k, o) => rotateOpnd k o s
  | none => raiseUnmappedOpcode .secondary op2 s

/-- `RLCA` (R231). -/
def exec_rlca (s : State) : Result := rotateA .rlc s

/-- `RRCA` (R232). -/
def exec_rrca (s : State) : Result := rotateA .rrc s

/-- `RLA` (R233). -/
def exec_rla (s : State) : Result := rotateA .rl s

/-- `RRA` (R234). -/
def exec_rra (s : State) : Result := rotateA .rr s

/-- `PREFIX CB` (R235). -/
def exec_prefix_CB (op2 : Byte) (s : State) : Result := dispatchPrefixed op2 s

/-- `RLC B` (R236). -/
def exec_rlc_B (s : State) : Result := rotateOpnd .rlc (.reg .B) s

/-- `RLC C` (R236). -/
def exec_rlc_C (s : State) : Result := rotateOpnd .rlc (.reg .C) s

/-- `RLC D` (R236). -/
def exec_rlc_D (s : State) : Result := rotateOpnd .rlc (.reg .D) s

/-- `RLC E` (R236). -/
def exec_rlc_E (s : State) : Result := rotateOpnd .rlc (.reg .E) s

/-- `RLC H` (R236). -/
def exec_rlc_H (s : State) : Result := rotateOpnd .rlc (.reg .H) s

/-- `RLC L` (R236). -/
def exec_rlc_L (s : State) : Result := rotateOpnd .rlc (.reg .L) s

/-- `RLC (HL)` (R237). -/
def exec_rlc_mHL (s : State) : Result := rotateOpnd .rlc .mHL s

/-- `RLC A` (R236). -/
def exec_rlc_A (s : State) : Result := rotateOpnd .rlc (.reg .A) s

/-- `RRC B` (R238). -/
def exec_rrc_B (s : State) : Result := rotateOpnd .rrc (.reg .B) s

/-- `RRC C` (R238). -/
def exec_rrc_C (s : State) : Result := rotateOpnd .rrc (.reg .C) s

/-- `RRC D` (R238). -/
def exec_rrc_D (s : State) : Result := rotateOpnd .rrc (.reg .D) s

/-- `RRC E` (R238). -/
def exec_rrc_E (s : State) : Result := rotateOpnd .rrc (.reg .E) s

/-- `RRC H` (R238). -/
def exec_rrc_H (s : State) : Result := rotateOpnd .rrc (.reg .H) s

/-- `RRC L` (R238). -/
def exec_rrc_L (s : State) : Result := rotateOpnd .rrc (.reg .L) s

/-- `RRC (HL)` (R239). -/
def exec_rrc_mHL (s : State) : Result := rotateOpnd .rrc .mHL s

/-- `RRC A` (R238). -/
def exec_rrc_A (s : State) : Result := rotateOpnd .rrc (.reg .A) s

/-- `RL B` (R240). -/
def exec_rl_B (s : State) : Result := rotateOpnd .rl (.reg .B) s

/-- `RL C` (R240). -/
def exec_rl_C (s : State) : Result := rotateOpnd .rl (.reg .C) s

/-- `RL D` (R240). -/
def exec_rl_D (s : State) : Result := rotateOpnd .rl (.reg .D) s

/-- `RL E` (R240). -/
def exec_rl_E (s : State) : Result := rotateOpnd .rl (.reg .E) s

/-- `RL H` (R240). -/
def exec_rl_H (s : State) : Result := rotateOpnd .rl (.reg .H) s

/-- `RL L` (R240). -/
def exec_rl_L (s : State) : Result := rotateOpnd .rl (.reg .L) s

/-- `RL (HL)` (R241). -/
def exec_rl_mHL (s : State) : Result := rotateOpnd .rl .mHL s

/-- `RL A` (R240). -/
def exec_rl_A (s : State) : Result := rotateOpnd .rl (.reg .A) s

/-- `RR B` (R242). -/
def exec_rr_B (s : State) : Result := rotateOpnd .rr (.reg .B) s

/-- `RR C` (R242). -/
def exec_rr_C (s : State) : Result := rotateOpnd .rr (.reg .C) s

/-- `RR D` (R242). -/
def exec_rr_D (s : State) : Result := rotateOpnd .rr (.reg .D) s

/-- `RR E` (R242). -/
def exec_rr_E (s : State) : Result := rotateOpnd .rr (.reg .E) s

/-- `RR H` (R242). -/
def exec_rr_H (s : State) : Result := rotateOpnd .rr (.reg .H) s

/-- `RR L` (R242). -/
def exec_rr_L (s : State) : Result := rotateOpnd .rr (.reg .L) s

/-- `RR (HL)` (R243). -/
def exec_rr_mHL (s : State) : Result := rotateOpnd .rr .mHL s

/-- `RR A` (R242). -/
def exec_rr_A (s : State) : Result := rotateOpnd .rr (.reg .A) s

/-- `SLA B` (R244). -/
def exec_sla_B (s : State) : Result := rotateOpnd .sla (.reg .B) s

/-- `SLA C` (R244). -/
def exec_sla_C (s : State) : Result := rotateOpnd .sla (.reg .C) s

/-- `SLA D` (R244). -/
def exec_sla_D (s : State) : Result := rotateOpnd .sla (.reg .D) s

/-- `SLA E` (R244). -/
def exec_sla_E (s : State) : Result := rotateOpnd .sla (.reg .E) s

/-- `SLA H` (R244). -/
def exec_sla_H (s : State) : Result := rotateOpnd .sla (.reg .H) s

/-- `SLA L` (R244). -/
def exec_sla_L (s : State) : Result := rotateOpnd .sla (.reg .L) s

/-- `SLA (HL)` (R245). -/
def exec_sla_mHL (s : State) : Result := rotateOpnd .sla .mHL s

/-- `SLA A` (R244). -/
def exec_sla_A (s : State) : Result := rotateOpnd .sla (.reg .A) s

/-- `SRA B` (R246). -/
def exec_sra_B (s : State) : Result := rotateOpnd .sra (.reg .B) s

/-- `SRA C` (R246). -/
def exec_sra_C (s : State) : Result := rotateOpnd .sra (.reg .C) s

/-- `SRA D` (R246). -/
def exec_sra_D (s : State) : Result := rotateOpnd .sra (.reg .D) s

/-- `SRA E` (R246). -/
def exec_sra_E (s : State) : Result := rotateOpnd .sra (.reg .E) s

/-- `SRA H` (R246). -/
def exec_sra_H (s : State) : Result := rotateOpnd .sra (.reg .H) s

/-- `SRA L` (R246). -/
def exec_sra_L (s : State) : Result := rotateOpnd .sra (.reg .L) s

/-- `SRA (HL)` (R247). -/
def exec_sra_mHL (s : State) : Result := rotateOpnd .sra .mHL s

/-- `SRA A` (R246). -/
def exec_sra_A (s : State) : Result := rotateOpnd .sra (.reg .A) s

/-- `SRL B` (R248). -/
def exec_srl_B (s : State) : Result := rotateOpnd .srl (.reg .B) s

/-- `SRL C` (R248). -/
def exec_srl_C (s : State) : Result := rotateOpnd .srl (.reg .C) s

/-- `SRL D` (R248). -/
def exec_srl_D (s : State) : Result := rotateOpnd .srl (.reg .D) s

/-- `SRL E` (R248). -/
def exec_srl_E (s : State) : Result := rotateOpnd .srl (.reg .E) s

/-- `SRL H` (R248). -/
def exec_srl_H (s : State) : Result := rotateOpnd .srl (.reg .H) s

/-- `SRL L` (R248). -/
def exec_srl_L (s : State) : Result := rotateOpnd .srl (.reg .L) s

/-- `SRL (HL)` (R249). -/
def exec_srl_mHL (s : State) : Result := rotateOpnd .srl .mHL s

/-- `SRL A` (R248). -/
def exec_srl_A (s : State) : Result := rotateOpnd .srl (.reg .A) s

end Sys2Proof.Machine
end

