-- ==== Sys2Proof/Machine/Stack.lean ====
section
/-! DEFINITION. PUSH and POP (spec/42_stack.md R202 to R205). -/

namespace Sys2Proof.Machine

/-- `Push16(w)` and on (R202, R203). -/
def pushWord (w : Word) (s : State) : Result := .next ((push16 w s).advance 1)

/-- `rr <- Pop16()` (R205). -/
def popPair (p : Pair) (s : State) : Result :=
  let (w, s1) := pop16 s
  .next ((s1.setPair p w).advance 1)

/-- `AF <- Pop16()`, bits 3 to 0 of `F` forced to zero (R204). -/
def popAF (s : State) : Result :=
  let (w, s1) := pop16 s
  .next ((s1.setAF w).advance 1)

/-- `POP BC` (R205). -/
def exec_pop_BC (s : State) : Result := popPair .BC s

/-- `PUSH BC` (R202). -/
def exec_push_BC (s : State) : Result := pushWord (s.pair .BC) s

/-- `POP DE` (R205). -/
def exec_pop_DE (s : State) : Result := popPair .DE s

/-- `PUSH DE` (R202). -/
def exec_push_DE (s : State) : Result := pushWord (s.pair .DE) s

/-- `POP HL` (R205). -/
def exec_pop_HL (s : State) : Result := popPair .HL s

/-- `PUSH HL` (R202). -/
def exec_push_HL (s : State) : Result := pushWord (s.pair .HL) s

/-- `POP AF` (R204). -/
def exec_pop_AF (s : State) : Result := popAF s

/-- `PUSH AF` (R203). -/
def exec_push_AF (s : State) : Result := pushWord s.af s

end Sys2Proof.Machine
end

