-- ==== Sys2Proof/Machine/System.lean ====
section
/-! DEFINITION. The two writers of `IME` (spec/45_system.md R260, R261). Nothing reads it (10_state.md R17). -/

namespace Sys2Proof.Machine

/-- `IME <- b`, at once (R260, R261). -/
def setInterrupts (b : Bool) (s : State) : Result := .next ((s.setIME b).advance 1)

/-- `DI` (R260). -/
def exec_di (s : State) : Result := setInterrupts false s

/-- `EI` (R261). -/
def exec_ei (s : State) : Result := setInterrupts true s

end Sys2Proof.Machine
end

