-- ==== Sys2Proof/Machine/Fetch.lean ====
section
/-! DEFINITION. The wall clock of a step, fetching an instruction's bytes, and placing bytes where they will be fetched. -/

namespace Sys2Proof.Machine

/-- The sample `now` of the step that begins (00_scope.md R5): the host's next queued sample, or, where none is queued, a
free value that is not below the last sample (log 6). -/
def State.takeSample (s : State) : State :=
  match s.clock.samples with
  | t :: ts => { s with clock.now := t, clock.samples := ts }
  | [] =>
    { s with
      clock.now := s.clock.now + Config.secondsBetweenSteps s.clock.draws
      clock.draws := s.clock.draws + 1 }

/-- Read `n` bytes from `addr` on, lowest address first, each with `BusRead` (20_memory.md R91, R94). -/
def fetchBytes (n : Nat) (addr : Word) (s : State) : List Byte × State :=
  match n with
  | 0 => ([], s)
  | n + 1 =>
    let (b, s1) := busRead addr s
    let (bs, s2) := fetchBytes n (addr + 1) s1
    (b :: bs, s2)

/-- The bytes of the instruction at `PC`: the first one decides how many follow (30_encoding.md R121, R122). -/
def fetch (s : State) : List Byte × State :=
  let (op, s1) := busRead s.regs.pc s
  let (rest, s2) := fetchBytes (fetchLength op - 1) (s.regs.pc + 1) s1
  (op :: rest, s2)

/-! ## Placing an instruction (the host's loader; log 4, log 13) -/

/-- Whether the store at an address gives back, at the next fetch, the byte that is put there: the RTC registers (a
fetch may refresh them) and the addresses without storage do not. ROM offsets beyond the image count: the image grows. -/
def State.holdsCode (s : State) (addr : Word) : Bool :=
  addr.toNat ≤ 0x7FFF ||
  match route s addr with
  | .vram _ | .eram _ | .wram _ | .oam _ | .io _ | .hram _ | .ie => true
  | .rom _ | .rtc _ | .nowhere => false

/-- The ROM offset that an address below 0x8000 reads (20_memory.md R60, R61). -/
def State.romOffset (s : State) (addr : Word) : Nat :=
  if addr.toNat ≤ 0x3FFF then addr.toNat else (addr.toNat - 0x4000) + s.mbc.romBank.toNat * 0x4000

/-- Put a byte into the ROM image, growing the image to hold it. -/
def State.loadRom (s : State) (off : Nat) (v : Byte) : State :=
  { s with cart.rom := s.cart.rom.write off v, cart.romLen := max s.cart.romLen (off + 1) }

/-- Put one byte where a fetch from `addr` reads it. -/
def State.loadByte (s : State) (addr : Word) (v : Byte) : State :=
  if addr.toNat ≤ 0x7FFF then s.loadRom (s.romOffset addr) v else s.putStore (route s addr) v

/-- Put bytes where fetches from `addr` on read them. -/
def State.loadBytes (s : State) (addr : Word) (bytes : List Byte) : State :=
  match bytes with
  | [] => s
  | b :: rest => (s.loadByte addr b).loadBytes (addr + 1) rest

/-- The state from which the next step fetches `bytes`: they are put at `PC`; where the three addresses from `PC` on do
not all hold code, `PC` is first set to the entry point 0x0100. -/
def State.placeCode (s : State) (bytes : List Byte) : State :=
  let pc := s.regs.pc
  if s.holdsCode pc && s.holdsCode (pc + 1) && s.holdsCode (pc + 2) then s.loadBytes pc bytes
  else (s.jump 0x0100).loadBytes 0x0100 bytes

/-- Run the decoded bytes: the instruction's meaning, or the Halted result for an unmapped first byte. -/
def runDecoded (run : Instr → State → Result) (bytes : List Byte) (s : State) : Result :=
  match decode bytes with
  | .ok (i, _) => run i s
  | .error (.unmappedPrimary op) => raiseUnmappedOpcode .primary op s
  | .error .truncated => raiseUnmappedOpcode .primary (bytes.headD Config.sentinel) s

end Sys2Proof.Machine
end

