-- ==== Sys2Proof/Machine/Step.lean ====
section
/-! DEFINITION. One step of the CORE (spec/30_encoding.md R121). -/

namespace Sys2Proof.Machine

/-- Take the step's clock sample, fetch, decode, execute (R121; log 12). -/
def step (s : State) : Host.Outcome State Fault Refusal :=
  runDecoded exec (fetch s.takeSample).1 (fetch s.takeSample).2

/-- `s` with a table word's instruction placed where `step` fetches next (log 4, log 9, log 13). -/
def State.withFetchWord (s : State) (nbits w : Nat) : State :=
  s.placeCode (tableWordBytes nbits w)

end Sys2Proof.Machine
end

