-- ==== Sys2Proof/Safety.lean ====
section
/-! DEFINITION. The legal states of the CORE (spec/10_state.md R13, R20 to R23), and the words the statements use: what
two states agree on, which instructions store where, which addresses are plain storage. -/

namespace Sys2Proof.Machine

/-! ## Legal states -/

/-- The legal values of the bank controller's registers, per controller type (R22, R23). -/
def Mbc.legal (t : MbcType) (m : Mbc) : Bool :=
  !m.mode &&
  match t with
  | .romOnly => !m.ramEnabled && decide (m.romBank = 1) && decide (m.ramBank = 0)
  | .mbc5bit => decide (1 ≤ m.romBank.toNat) && decide (m.romBank.toNat ≤ 31) && decide (m.ramBank.toNat ≤ 3)
  | .mbc7bitRtc =>
    decide (m.romBank.toNat ≤ 127) &&
      (decide (m.ramBank.toNat ≤ 3) || (decide (0x08 ≤ m.ramBank.toNat) && decide (m.ramBank.toNat ≤ 0x0C)))
  | .mbc8bit => decide (m.ramBank.toNat ≤ 3)

/-- A cartridge that `load` lets through: at least 0x150 bytes (00_scope.md R4), the image in canonical form. -/
def legalCartridge (c : Cartridge) : Bool :=
  decide (Config.minRomLen ≤ c.romLen) && Memory.wf c.romLen c.rom

/-- The arrays in canonical form, each within its size (R20, R21). -/
def Ram.legal (ramSize : Nat) (r : Ram) : Bool :=
  Memory.wf 0x2000 r.vram && Memory.wf 0x2000 r.wram && Memory.wf 0xA0 r.oam && Memory.wf 0x80 r.io &&
    Memory.wf 0x7F r.hram && Memory.wf ramSize r.eram

/-- A legal state. -/
structure State.Legal (s : State) : Prop where
  /-- `F[3:0] = 0` (R13). -/
  flags : s.regs.f &&& 0x0F = 0
  mbc : s.mbc.legal s.cart.mbcType = true
  ram : s.ram.legal s.cart.ramSize.bytes = true
  cart : legalCartridge s.cart = true

/-! ## What two states agree on -/

/-- The bank controller, the arrays, the cartridge and the clock samples are the same; of the RTC nothing is said. -/
def SameStorage (s t : State) : Prop :=
  t.mbc = s.mbc ∧ t.ram = s.ram ∧ t.cart = s.cart ∧ t.clock = s.clock

/-- Everything outside the CPU registers is the same. -/
def SameOutside (s t : State) : Prop := SameStorage s t ∧ t.rtc = s.rtc

/-- `SP` and `IME` are the same, and every 8-bit register that is not in the list; of `F` and `PC` nothing is said. -/
def SameRegsBut (rs : List Reg8) (s t : State) : Prop :=
  (∀ r, r ∉ rs → t.reg r = s.reg r) ∧ t.regs.sp = s.regs.sp ∧ t.regs.ime = s.regs.ime

/-- The four flags of `t`, and the low nibble of `F` as in `s`. -/
def FlagsAre (s t : State) (z n h c : Prop) : Prop :=
  (t.flagZ = true ↔ z) ∧ (t.flagN = true ↔ n) ∧ (t.flagH = true ↔ h) ∧ (t.flagC = true ↔ c) ∧
    t.regs.f &&& 0x0F = s.regs.f &&& 0x0F

/-! ## Which instructions store, and where -/

/-- The instructions that write one byte at `HL` (20_memory.md R57). -/
def StoresAtHL (i : Instr) : Prop :=
  (∃ r, i = Instr.ofLdToHL r) ∨ (∃ n, i = Instr.ofLdImm .mHL n) ∨ i = Instr.ofInc .mHL ∨ i = Instr.ofDec .mHL ∨
    ∃ k, i = Instr.ofRot k .mHL

/-- The instructions that write two bytes, at `SP-1` and `SP-2` (20_memory.md R57, R91). -/
def StoresOnStack (i : Instr) : Prop :=
  (∃ p, i = Instr.ofPush p) ∨ i = .push_AF ∨ (∃ w, i = .call_a16 w) ∨ ∃ y, i = Instr.ofRst y

/-- The instructions that store nothing; the prefix row is left out, it stands for the row of its pair. -/
def StoresNothing (i : Instr) : Prop :=
  ¬ StoresAtHL i ∧ ¬ StoresOnStack i ∧ (∀ w, i ≠ .ld_ma16_A w) ∧ ∀ op2, i ≠ .prefix_CB op2

/-- The instructions whose rule lists flags (10_state.md R14); the prefix row stands for the row of its pair. -/
def WritesFlags (i : Instr) : Prop :=
  (∃ o, i = Instr.ofInc o) ∨ (∃ o, i = Instr.ofDec o) ∨ (∃ op o, i = Instr.ofAlu op o) ∨
    (∃ op n, i = Instr.ofAluImm op n) ∨ i = .cpl ∨ (∃ k, Instr.ofRotA k = some i) ∨ (∃ k o, i = Instr.ofRot k o) ∨
    (∃ op2, i = .prefix_CB op2) ∨ i = .pop_AF

/-- The instructions that set `PC` to something other than the next instruction's address on some path. -/
def Branches (i : Instr) : Prop :=
  (∃ w, i = .jp_a16 w) ∨ (∃ w, i = .call_a16 w) ∨ i = .ret ∨ (∃ y, i = Instr.ofRst y) ∨ (∃ e, i = .jr_e8 e) ∨
    ∃ cc e, i = Instr.ofJr cc e

/-! ## Plain storage -/

/-- The address reaches storage that gives back what was written: RAM of the bus or of the cartridge, and not the ROM,
an RTC register or nothing (42_stack.md R206). -/
def PlainStorage (s : State) (a : Word) : Prop :=
  0x8000 ≤ a.toNat ∧ route s a ≠ .nowhere ∧ ∀ reg, route s a ≠ .rtc reg

/-- A read of the address has no side effect (20_memory.md R68). -/
def QuietRead (s : State) (a : Word) : Prop := ∀ reg, route s a ≠ .rtc reg

/-- Every byte whose store is reached from none of the addresses `as` reads the same in both states. -/
def BytesElsewhere (as : List Word) (s t : State) : Prop :=
  ∀ b, (∀ a ∈ as, route s b ≠ route s a) → (busRead b t).1 = (busRead b s).1

/-! ## The words of the rules, in numbers -/

/-- The condition of `JR cc,e8` (41_control_transfer.md R187). -/
def CondIs (cc : Cond) (s : State) : Prop :=
  match cc with
  | .NZ => s.flagZ = false
  | .Z => s.flagZ = true
  | .NC => s.flagC = false
  | .C => s.flagC = true

/-- `RotShift` (44_rotate_shift.md R230) on numbers: operand `v` and Carry `cin` give result `r` and Carry `cout`. -/
def RotIs (k : RotKind) (v cin r cout : Nat) : Prop :=
  match k with
  | .rlc => cout = v / 128 ∧ r = v * 2 % 256 + v / 128
  | .rrc => cout = v % 2 ∧ r = v / 2 + v % 2 * 128
  | .rl => cout = v / 128 ∧ r = v * 2 % 256 + cin
  | .rr => cout = v % 2 ∧ r = v / 2 + cin * 128
  | .sla => cout = v / 128 ∧ r = v * 2 % 256
  | .sra => cout = v % 2 ∧ r = v / 2 + v / 128 * 128
  | .srl => cout = v % 2 ∧ r = v / 2

/-- Operand `o` holds `v` in state `s`, and reading it leaves `s1` (30_encoding.md R124). -/
def OpndReads (o : Opnd8) (s s1 : State) (v : Byte) : Prop :=
  match o with
  | .reg r => v = s.reg r ∧ s1 = s
  | .mHL => busRead s.hl s = (v, s1)

/-- `t` is `s` with `v` written to operand `o`, but for `F` and `PC`, of which nothing is said. -/
def OpndGets (o : Opnd8) (v : Byte) (s t : State) : Prop :=
  match o with
  | .reg r => t.reg r = v ∧ SameRegsBut [r] s t ∧ SameOutside s t
  | .mHL => SameRegsBut [] s t ∧ SameOutside (busWrite s.hl v s) t

/-- `i` is a form of `op`, `n` bytes long, with second operand `b`, and reading that operand leaves `s1`
(43_alu8.md R215 to R226). -/
def AluForm (op : AluOp) (i : Instr) (n : Nat) (s s1 : State) (b : Byte) : Prop :=
  (∃ o, i = Instr.ofAlu op o ∧ n = 1 ∧ OpndReads o s s1 b) ∨ (i = Instr.ofAluImm op b ∧ n = 2 ∧ s1 = s)

/-- The bus after the two writes of `Push16(w)`: the high byte at `SP-1`, then the low byte at `SP-2`
(42_stack.md R200); the CPU registers are those of `s`. -/
def afterPush (w : Word) (s : State) : State :=
  busWrite (s.regs.sp - 2) (loByte w) (busWrite (s.regs.sp - 1) (hiByte w) s)

/-- The two reads of `Pop16()` give `w` and leave `s2`, whose CPU registers are those of `s` (42_stack.md R201). -/
def PopReads (s s2 : State) (w : Word) : Prop :=
  ∃ l h s1, busRead s.regs.sp s = (l, s1) ∧ busRead (s.regs.sp + 1) s1 = (h, s2) ∧ w.toNat = h.toNat * 256 + l.toNat

/-- The 94 unmapped primary bytes (30_encoding.md R150). -/
def unmappedPrimary : List Nat :=
  [0x02, 0x03, 0x08, 0x09, 0x0A, 0x0B, 0x10, 0x12, 0x13, 0x19, 0x1A, 0x1B, 0x22, 0x23, 0x27, 0x29, 0x2A, 0x2B, 0x32,
    0x33, 0x37, 0x39, 0x3A, 0x3B, 0x3F, 0x76] ++
  [0x88, 0x89, 0x8A, 0x8B, 0x8C, 0x8D, 0x8E, 0x8F, 0x98, 0x99, 0x9A, 0x9B, 0x9C, 0x9D, 0x9E, 0x9F, 0xA0, 0xA1, 0xA2,
    0xA3, 0xA4, 0xA5, 0xA6, 0xA7] ++
  [0xB0, 0xB1, 0xB2, 0xB3, 0xB4, 0xB5, 0xB6, 0xB7, 0xC0, 0xC2, 0xC4, 0xC8, 0xCA, 0xCC, 0xCE, 0xD0, 0xD2, 0xD3, 0xD4,
    0xD8, 0xD9, 0xDA, 0xDB, 0xDC, 0xDD, 0xDE] ++
  [0xE0, 0xE2, 0xE3, 0xE4, 0xE6, 0xE8, 0xE9, 0xEB, 0xEC, 0xED, 0xF0, 0xF2, 0xF4, 0xF6, 0xF8, 0xF9, 0xFC, 0xFD]

/-- `f` on the state that an outcome carries: the next state, or the state after a Halted step. -/
def mapOutcome (f : State → State) (r : Result) : Result :=
  match r with
  | .next t => .next (f t)
  | .fault (.unmappedOpcode table byte addr after) => .fault (.unmappedOpcode table byte addr (f after))
  | .refused m => .refused m

end Sys2Proof.Machine
end

