-- ==== Sys2Proof/Certificates/Slice0/Obligations.lean ====
section
/-! DEFINITION. The statements for the provers, from the numbered rules of spec/. -/

open Sys2Proof Sys2Proof.Machine

/-! ## Encoding (spec/30_encoding.md) -/

/-- Decoding what the encoder writes gives the instruction back, whatever bytes follow: no operand bit is dropped
(R121, R130, R154). -/
def Obligations.DecodeOfEncode : Prop :=
  ∀ (i : Instr) (rest : List Byte), i.wf = true → decode (encode i ++ rest) = .ok (i, rest)

/-- What decodes is well formed and is the encoding of what it decodes to: one meaning a word, one word a meaning
(R152, R154). -/
def Obligations.EncodeOfDecode : Prop :=
  ∀ (bytes rest : List Byte) (i : Instr), decode bytes = .ok (i, rest) → i.wf = true ∧ bytes = encode i ++ rest

/-- The bytes without a meaning (R150, R151; the sets are the spec's own decisions D2 and D16): in the primary table the 94
that R150 lists; after the prefix 0x30 to 0x37 and 0x40 to 0xFF, which decode to the prefix row. -/
def Obligations.UnmappedBytes : Prop :=
  (∀ (op : Byte) (rest : List Byte), decode (op :: rest) = .error (.unmappedPrimary op) ↔ op.toNat ∈ unmappedPrimary) ∧
  (∀ (op2 : Byte) (rest : List Byte), decode (0xCB :: op2 :: rest) = .ok (.prefix_CB op2, rest) ↔
    (0x30 ≤ op2.toNat ∧ op2.toNat ≤ 0x37) ∨ 0x40 ≤ op2.toNat)

/-- Some words of R140 and R141, one or two for each family, operand bytes low byte first (R130). The byte values are
the spec's own choice (decision D3). -/
def Obligations.SampleWordsDecode : Prop :=
  decode [0x00] = .ok (.nop, []) ∧
  decode [0x41] = .ok (.ld_B_C, []) ∧
  decode [0x77] = .ok (.ld_mHL_A, []) ∧
  decode [0x21, 0x00, 0x20] = .ok (.ld_HL_d16 0x2000, []) ∧
  decode [0xEA, 0x34, 0x12] = .ok (.ld_ma16_A 0x1234, []) ∧
  decode [0x20, 0xFC] = .ok (.jr_NZ_e8 0xFC, []) ∧
  decode [0xCD, 0x0D, 0x01] = .ok (.call_a16 0x010D, []) ∧
  decode [0xEF] = .ok (.rst_0x28, []) ∧
  decode [0xF5] = .ok (.push_AF, []) ∧
  decode [0x34] = .ok (.inc_mHL, []) ∧
  decode [0xFE, 0x2F] = .ok (.cp_d8 0x2F, []) ∧
  decode [0xCB, 0x1A] = .ok (.rr_D, []) ∧
  decode [0xFB] = .ok (.ei, [])

/-- The first byte alone decides the length (R122): every decoding uses exactly that many bytes, any operand bytes are
legal, and the prefix byte always makes two. -/
def Obligations.FirstByteDecidesLength : Prop :=
  (∀ (op : Byte) (rest more : List Byte) (i : Instr), decode (op :: rest) = .ok (i, more) →
    ∃ used, rest = used ++ more ∧ used.length + 1 = fetchLength op) ∧
  (∀ (op : Byte) (operands : List Byte), op.toNat ∉ unmappedPrimary → operands.length + 1 = fetchLength op →
    ∃ i, decode (op :: operands) = .ok (i, [])) ∧
  fetchLength 0xCB = 2

/-! ## The step (spec/30_encoding.md R121, spec/60_exceptions.md section 1) -/

/-- A step runs the decoded instruction: its meaning in the state that the fetch left. That `PC` holds the address of
the instruction's first byte while the meaning runs is log 12, the clock sample is log 6. -/
def Obligations.StepRunsDecodedInstruction : Prop :=
  ∀ (s : State) (i : Instr) (rest : List Byte), decode (fetch s.takeSample).1 = .ok (i, rest) →
    step s = exec i (fetch s.takeSample).2

/-- Where the bytes from `PC` on, read through the bus with no side effect, are an instruction's encoding, the step is
that instruction's meaning (R121, 20_memory.md R94): addresses wrap. -/
def Obligations.StepRunsEncodedInstruction : Prop :=
  ∀ (s : State) (i : Instr), i.wf = true →
    (∀ k b, (encode i)[k]? = some b →
      QuietRead s (s.regs.pc + BitVec.ofNat 16 k) ∧ (busRead (s.regs.pc + BitVec.ofNat 16 k) s).1 = b) →
    step s = exec i s.takeSample

/-- An unmapped first byte: the step is Halted with the table, the byte and `A0`; no CPU register, bank-controller
register or memory byte is written, and the RTC only where the fetch read an RTC register (R270; that the registers
are left alone is the spec's decision D7). -/
def Obligations.UnmappedPrimaryHalts : Prop :=
  ∀ (s : State) (b : Byte), b = (busRead s.regs.pc s.takeSample).1 → b.toNat ∈ unmappedPrimary →
    ∃ after, step s = .fault (.unmappedOpcode .primary b s.regs.pc after) ∧
      after.regs = s.regs ∧ after.mbc = s.mbc ∧ after.ram = s.ram ∧ after.cart = s.cart ∧
      (QuietRead s s.regs.pc → after.rtc = s.rtc)

/-- An unmapped byte after the prefix 0xCB: the same, with the secondary table and `PC` still at the prefix byte (R270,
44_rotate_shift.md R235; decision D7). -/
def Obligations.UnmappedSecondaryHalts : Prop :=
  ∀ (s s1 s2 : State) (op2 : Byte), busRead s.regs.pc s.takeSample = (0xCB, s1) →
    busRead (s.regs.pc + 1) s1 = (op2, s2) → unmappedSecondary op2 = true →
    ∃ after, step s = .fault (.unmappedOpcode .secondary op2 s.regs.pc after) ∧
      after.regs = s.regs ∧ after.mbc = s.mbc ∧ after.ram = s.ram ∧ after.cart = s.cart ∧
      (QuietRead s s.regs.pc → QuietRead s (s.regs.pc + 1) → after.rtc = s.rtc)

/-- A step never refuses, and it is Halted exactly where a lookup fails: otherwise it gives a next state (R272, R271). -/
def Obligations.StepStopsOnlyOnUnmapped : Prop :=
  ∀ s s1 s2 : State, ∀ op op2 : Byte, busRead s.regs.pc s.takeSample = (op, s1) →
    busRead (s.regs.pc + 1) s1 = (op2, s2) →
    (op.toNat ∈ unmappedPrimary ∨ (op = 0xCB ∧ unmappedSecondary op2 = true) → ∃ r, step s = .fault r) ∧
    (op.toNat ∉ unmappedPrimary → (op = 0xCB → unmappedSecondary op2 = false) → ∃ t, step s = .next t)

/-- Halted again: a step from the state a Halted step left gives Halted with the same information and changes nothing
but the clock sample, where the two bytes at `PC` are not RTC registers (R273; stepping on after Halted is log 7). -/
def Obligations.HaltedAgain : Prop :=
  ∀ (s after : State) (table : OpcodeTable) (byte : Byte) (addr : Word),
    step s = .fault (.unmappedOpcode table byte addr after) → QuietRead s s.regs.pc → QuietRead s (s.regs.pc + 1) →
    ∃ again, step after = .fault (.unmappedOpcode table byte addr again) ∧
      again.regs = after.regs ∧ again.mbc = after.mbc ∧ again.ram = after.ram ∧ again.cart = after.cart ∧
      again.rtc = after.rtc

/-- Every instruction that does not branch leaves `PC` at `A0` plus its length, modulo 0x10000 (R123, 10_state.md R16):
the prefixed ones at `A0 + 2`. -/
def Obligations.SequentialPc : Prop :=
  ∀ (i : Instr) (s t : State), exec i s = .next t → ¬ Branches i →
    t.regs.pc.toNat = (s.regs.pc.toNat + (encode i).length) % 0x10000

/-! ## Reset and invariants (spec/10_state.md, spec/70_reset_and_hazards.md) -/

/-- The CPU registers after `new_engine`, whatever the parameters (R30). That `State.reset` is `new_engine` on the parameters
of `Config` is the model's own choice (log 2, 3, 4). -/
def Obligations.ResetRegisters : Prop :=
  (∀ (cart : Cartridge) (ioReset : Memory) (t0 : Nat) (s : State), s = State.newEngine cart ioReset t0 →
    s.regs.pc = 0x0100 ∧ (∀ r, s.reg r = 0x00) ∧ s.regs.f = 0x00 ∧ s.regs.sp = 0x0000 ∧ s.regs.ime = false) ∧
  State.reset = State.newEngine Config.cartridge Config.ioReset Config.t0

/-- `new_engine` gives a legal state for every legal cartridge and every I/O image, and so is `State.reset` (R330, R13,
R23). The values of the bank controller and of the arrays are the spec's decisions D21 and D29 (log 1, log 5), the
parameters of `State.reset` the model's choice (log 2 to 4). -/
def Obligations.ResetIsLegal : Prop :=
  (∀ (cart : Cartridge) (ioReset : Memory) (t0 : Nat), legalCartridge cart = true → Memory.wf 0x80 ioReset = true →
    (State.newEngine cart ioReset t0).Legal) ∧
  State.reset.Legal

/-- Every step keeps a legal state legal, a Halted one too: `F[3:0] = 0` (R13), the bank registers in range for the
controller type and the 5-bit family's ROM bank never 0 (R22, R23), the arrays in canonical form within their sizes
(R20, R21). -/
def Obligations.StepKeepsLegal : Prop :=
  ∀ s : State, s.Legal →
    (∀ t, step s = .next t → t.Legal) ∧
    (∀ table byte addr after, step s = .fault (.unmappedOpcode table byte addr after) → after.Legal)

/-- No step changes the cartridge: `ROM` is immutable and the parameters are fixed at reset (00_scope.md R4, R21). Each
step takes one clock sample, never below the last one where the host has queued none (00_scope.md R5; log 6). -/
def Obligations.StepKeepsCartridgeTakesOneSample : Prop :=
  ∀ s t : State, step s = .next t →
    t.cart = s.cart ∧ t.clock = s.takeSample.clock ∧ (s.clock.samples = [] → s.clock.now ≤ t.clock.now) ∧
    (∀ now later, s.clock.samples = now :: later → t.clock.now = now ∧ t.clock.samples = later)

/-- Only the instructions whose rule lists flags change `F` (R14). -/
def Obligations.OnlyFlagInstructionsChangeF : Prop :=
  ∀ (i : Instr) (s t : State), exec i s = .next t → ¬ WritesFlags i → t.regs.f = s.regs.f

/-- Only `LD SP,d16`, `PUSH`, `POP`, `CALL`, `RET` and `RST` move `SP`, and each of the last five by two (R11, R15). -/
def Obligations.OnlyStackInstructionsMoveSP : Prop :=
  ∀ (i : Instr) (s t : State), exec i s = .next t →
    (∃ w, i = .ld_SP_d16 w ∧ t.regs.sp = w) ∨
    (StoresOnStack i ∧ t.regs.sp = s.regs.sp - 2) ∨
    ((i = .ret ∨ i = .pop_AF ∨ ∃ p, i = Instr.ofPop p) ∧ t.regs.sp = s.regs.sp + 2) ∨
    t.regs.sp = s.regs.sp

/-- `IME` is storage only: two runs of a step that differ in `IME` differ in nothing else afterwards, and only `DI` and
`EI` change it (R17; that `EI` sets it at once is the spec's decision D15). -/
def Obligations.ImeIsStorageOnly : Prop :=
  (∀ (s : State) (b : Bool),
    mapOutcome (fun t => t.setIME false) (step (s.setIME b)) = mapOutcome (fun t => t.setIME false) (step s)) ∧
  (∀ (i : Instr) (s t : State), exec i s = .next t → i ≠ .di → i ≠ .ei → t.regs.ime = s.regs.ime) ∧
  (∀ s : State, ∃ t, exec .di s = .next t ∧ t.regs.ime = false) ∧
  (∀ s : State, ∃ t, exec .ei s = .next t ∧ t.regs.ime = true)

/-! ## NOP and loads (spec/40_nop_loads.md) -/

/-- `NOP`, byte 0x00, completes everywhere and changes nothing but `PC` (R160). -/
def Obligations.NopOnlyAdvances : Prop :=
  encode .nop = [0x00] ∧
  ∀ s : State, ∃ t, exec .nop s = .next t ∧ t.regs.pc = s.regs.pc + 1 ∧ SameRegsBut [] s t ∧ t.regs.f = s.regs.f ∧
    SameOutside s t

/-- `LD d,s` on registers (R161), all 49: `d` takes the old value of the source, nothing else moves but `PC`. -/
def Obligations.LoadRegister : Prop :=
  ∀ (d r : Reg8) (s : State), ∃ t, exec (Instr.ofLdReg d r) s = .next t ∧ t.reg d = s.reg r ∧ SameRegsBut [d] s t ∧
    t.regs.f = s.regs.f ∧ t.regs.pc = s.regs.pc + 1 ∧ SameOutside s t

/-- `LD d,(HL)` (R162): the byte at the old `HL`, also where `d` is `H` or `L`; outside the CPU, what the read leaves. -/
def Obligations.LoadFromHL : Prop :=
  ∀ (d : Reg8) (s s1 : State) (v : Byte), busRead s.hl s = (v, s1) →
    ∃ t, exec (Instr.ofLdFromHL d) s = .next t ∧ t.reg d = v ∧ SameRegsBut [d] s t ∧ t.regs.f = s.regs.f ∧
      t.regs.pc = s.regs.pc + 1 ∧ SameOutside s1 t

/-- `LD (HL),s` (R163): outside the CPU exactly what one bus write at `HL` leaves, a control write included. -/
def Obligations.StoreToHL : Prop :=
  ∀ (r : Reg8) (s : State), ∃ t, exec (Instr.ofLdToHL r) s = .next t ∧ SameRegsBut [] s t ∧ t.regs.f = s.regs.f ∧
    t.regs.pc = s.regs.pc + 1 ∧ SameOutside (busWrite s.hl (s.reg r) s) t

/-- `LD d,d8` (R164) and `LD (HL),d8` (R165). -/
def Obligations.LoadImmediate : Prop :=
  ∀ (o : Opnd8) (n : Byte) (s : State), ∃ t, exec (Instr.ofLdImm o n) s = .next t ∧ OpndGets o n s t ∧
    t.regs.f = s.regs.f ∧ t.regs.pc = s.regs.pc + 2

/-- `LD rr,d16` (R166), the high byte to the first-named register, and `LD SP,d16` (R167). -/
def Obligations.LoadPairImmediate : Prop :=
  (∀ (p : Pair) (w : Word) (s : State), ∃ t, exec (Instr.ofLdPair p w) s = .next t ∧
    (t.reg (Pair.hiReg p)).toNat = w.toNat / 256 ∧ (t.reg (Pair.loReg p)).toNat = w.toNat % 256 ∧
    SameRegsBut [Pair.hiReg p, Pair.loReg p] s t ∧ t.regs.f = s.regs.f ∧ t.regs.pc = s.regs.pc + 3 ∧ SameOutside s t) ∧
  (∀ (w : Word) (s : State), ∃ t, exec (.ld_SP_d16 w) s = .next t ∧ t.regs.sp = w ∧ (∀ r, t.reg r = s.reg r) ∧
    t.regs.ime = s.regs.ime ∧ t.regs.f = s.regs.f ∧ t.regs.pc = s.regs.pc + 3 ∧ SameOutside s t)

/-- `LD A,(a16)` (R168) and `LD (a16),A` (R169). -/
def Obligations.AbsoluteLoadAndStore : Prop :=
  (∀ (x : Word) (s s1 : State) (v : Byte), busRead x s = (v, s1) →
    ∃ t, exec (.ld_A_ma16 x) s = .next t ∧ t.reg .A = v ∧ SameRegsBut [.A] s t ∧ t.regs.f = s.regs.f ∧
      t.regs.pc = s.regs.pc + 3 ∧ SameOutside s1 t) ∧
  (∀ (x : Word) (s : State), ∃ t, exec (.ld_ma16_A x) s = .next t ∧ SameRegsBut [] s t ∧ t.regs.f = s.regs.f ∧
    t.regs.pc = s.regs.pc + 3 ∧ SameOutside (busWrite x (s.reg .A) s) t)

/-! ## Control transfer (spec/41_control_transfer.md) -/

/-- The branching contract (R180): the absolute branches set `PC` to exactly their target; the relative ones add the
signed offset to the address after their two bytes when the condition holds, else fall through to that address. -/
def Obligations.BranchTargets : Prop :=
  (∀ (x : Word) (s : State), ∃ t, exec (.jp_a16 x) s = .next t ∧ t.regs.pc = x) ∧
  (∀ (x : Word) (s : State), ∃ t, exec (.call_a16 x) s = .next t ∧ t.regs.pc = x) ∧
  (∀ (s s2 : State) (w : Word), PopReads s s2 w → ∃ t, exec .ret s = .next t ∧ t.regs.pc = w) ∧
  (∀ (y : Fin 8) (s : State), ∃ t, exec (Instr.ofRst y) s = .next t ∧ t.regs.pc.toNat = 8 * y.val) ∧
  (∀ (e : Byte) (s : State), ∃ t, exec (.jr_e8 e) s = .next t ∧
    (t.regs.pc.toNat : Int) = ((s.regs.pc.toNat : Int) + 2 + e.toInt) % 0x10000) ∧
  (∀ (cc : Cond) (e : Byte) (s : State), CondIs cc s → ∃ t, exec (Instr.ofJr cc e) s = .next t ∧
    (t.regs.pc.toNat : Int) = ((s.regs.pc.toNat : Int) + 2 + e.toInt) % 0x10000) ∧
  (∀ (cc : Cond) (e : Byte) (s : State), ¬ CondIs cc s → ∃ t, exec (Instr.ofJr cc e) s = .next t ∧
    t.regs.pc.toNat = (s.regs.pc.toNat + 2) % 0x10000)

/-- `JP`, `JR` and `JR cc` change nothing but `PC` (R181, R185, R186). -/
def Obligations.JumpsChangeOnlyPc : Prop :=
  ∀ (i : Instr) (s : State), (∃ x, i = .jp_a16 x) ∨ (∃ e, i = .jr_e8 e) ∨ (∃ cc e, i = Instr.ofJr cc e) →
    ∃ t, exec i s = .next t ∧ SameRegsBut [] s t ∧ t.regs.f = s.regs.f ∧ SameOutside s t

/-- `CALL` (R182) and `RST` (R184; what it pushes and its targets are the spec's decision D14) push the address of the
next instruction, high byte first (decision D9), and jump; nothing else moves. -/
def Obligations.CallAndRstPushReturn : Prop :=
  ∀ (i : Instr) (n target : Word) (s : State),
    (i = .call_a16 target ∧ n = 3) ∨ (∃ y : Fin 8, i = Instr.ofRst y ∧ n = 1 ∧ target.toNat = 8 * y.val) →
    ∃ t, exec i s = .next t ∧ t.regs.pc = target ∧ t.regs.sp = s.regs.sp - 2 ∧ (∀ r, t.reg r = s.reg r) ∧
      t.regs.ime = s.regs.ime ∧ t.regs.f = s.regs.f ∧ SameOutside (afterPush (s.regs.pc + n) s) t

/-- `RET` (R183) loads `PC` from the two bytes at `SP` and `SP+1`, low byte first (R201). Its byte 0xC9 is the spec's decision
D3, from general knowledge (log 18). -/
def Obligations.RetPops : Prop :=
  encode .ret = [0xC9] ∧
  ∀ (s s2 : State) (w : Word), PopReads s s2 w →
    ∃ t, exec .ret s = .next t ∧ t.regs.pc = w ∧ t.regs.sp = s.regs.sp + 2 ∧ (∀ r, t.reg r = s.reg r) ∧
      t.regs.ime = s.regs.ime ∧ t.regs.f = s.regs.f ∧ SameOutside s2 t

/-! ## Stack (spec/42_stack.md) -/

/-- `PUSH rr` (R202) and `PUSH AF` (R203): `SP` two lower, outside the CPU what the two writes of R200 leave; where the
stack bytes are plain storage, they then read back, the high byte at the higher address. The order is the spec's
decision D9. -/
def Obligations.PushStoresWord : Prop :=
  ∀ (i : Instr) (hi lo : Byte) (s : State),
    (∃ p, i = Instr.ofPush p ∧ hi = s.reg (Pair.hiReg p) ∧ lo = s.reg (Pair.loReg p)) ∨
      (i = .push_AF ∧ hi = s.reg .A ∧ lo = s.regs.f) →
    ∃ t, exec i s = .next t ∧ t.regs.sp = s.regs.sp - 2 ∧ (∀ r, t.reg r = s.reg r) ∧ t.regs.ime = s.regs.ime ∧
      t.regs.f = s.regs.f ∧ t.regs.pc = s.regs.pc + 1 ∧ SameOutside (afterPush (joinBytes hi lo) s) t ∧
      (s.Legal → PlainStorage s (s.regs.sp - 1) → PlainStorage s (s.regs.sp - 2) →
        (busRead (s.regs.sp - 1) t).1 = hi ∧ (busRead (s.regs.sp - 2) t).1 = lo)

/-- `POP rr` (R205): the low byte from `SP`, the high byte from `SP+1`; nothing else moves. -/
def Obligations.PopLoadsPair : Prop :=
  ∀ (p : Pair) (s s2 : State) (w : Word), PopReads s s2 w →
    ∃ t, exec (Instr.ofPop p) s = .next t ∧ (t.reg (Pair.hiReg p)).toNat = w.toNat / 256 ∧
      (t.reg (Pair.loReg p)).toNat = w.toNat % 256 ∧ (∀ r, r ∉ [Pair.hiReg p, Pair.loReg p] → t.reg r = s.reg r) ∧
      t.regs.sp = s.regs.sp + 2 ∧ t.regs.ime = s.regs.ime ∧ t.regs.f = s.regs.f ∧ t.regs.pc = s.regs.pc + 1 ∧
      SameOutside s2 t

/-- `POP AF` (R204): `A` the high byte, the four flags the high bits of the low byte, and bits 3 to 0 of `F` zero (the
spec's decision D13). -/
def Obligations.PopAFMasksFlags : Prop :=
  ∀ (s s2 : State) (w : Word), PopReads s s2 w →
    ∃ t, exec .pop_AF s = .next t ∧ (t.reg .A).toNat = w.toNat / 256 ∧ t.regs.f.toNat = w.toNat % 256 / 16 * 16 ∧
      t.flagZ = w.getLsbD 7 ∧ t.flagN = w.getLsbD 6 ∧ t.flagH = w.getLsbD 5 ∧ t.flagC = w.getLsbD 4 ∧
      (∀ r, r ≠ .A → t.reg r = s.reg r) ∧ t.regs.sp = s.regs.sp + 2 ∧ t.regs.ime = s.regs.ime ∧
      t.regs.pc = s.regs.pc + 1 ∧ SameOutside s2 t

/-- The round trip (R206): a push and then a pop of the same pair, in plain storage, gives the pair and `SP` back, `AF`
too; `CALL` and then `RET` comes back to the instruction after the call. -/
def Obligations.StackRoundTrip : Prop :=
  ∀ s : State, s.Legal → PlainStorage s (s.regs.sp - 1) → PlainStorage s (s.regs.sp - 2) →
    (∀ p, ∃ t u, exec (Instr.ofPush p) s = .next t ∧ exec (Instr.ofPop p) t = .next u ∧ SameRegsBut [] s u ∧
      u.regs.f = s.regs.f) ∧
    (∃ t u, exec .push_AF s = .next t ∧ exec .pop_AF t = .next u ∧ SameRegsBut [] s u ∧ u.regs.f = s.regs.f) ∧
    (∀ x, ∃ t u, exec (.call_a16 x) s = .next t ∧ exec .ret t = .next u ∧ SameRegsBut [] s u ∧
      u.regs.pc = s.regs.pc + 3)

/-! ## 8-bit ALU (spec/43_alu8.md) -/

/-- `INC` on every operand (R211, R212; the `(HL)` form is the spec's decision D5): the result modulo 256 goes back to the
operand, Z, N and H are written, Carry stays. -/
def Obligations.IncrementResult : Prop :=
  ∀ (o : Opnd8) (s s1 : State) (v : Byte), OpndReads o s s1 v →
    ∃ (w : Byte) (t : State), exec (Instr.ofInc o) s = .next t ∧ w.toNat = (v.toNat + 1) % 256 ∧ OpndGets o w s1 t ∧
      FlagsAre s t (w.toNat = 0) False (v.toNat % 16 = 0x0F) (s.flagC = true) ∧ t.regs.pc = s.regs.pc + 1

/-- `DEC` on every operand (R213, R214; the borrow test is the spec's decision D11). -/
def Obligations.DecrementResult : Prop :=
  ∀ (o : Opnd8) (s s1 : State) (v : Byte), OpndReads o s s1 v →
    ∃ (w : Byte) (t : State), exec (Instr.ofDec o) s = .next t ∧ w.toNat = (v.toNat + 255) % 256 ∧ OpndGets o w s1 t ∧
      FlagsAre s t (w.toNat = 0) True (v.toNat % 16 = 0) (s.flagC = true) ∧ t.regs.pc = s.regs.pc + 1

/-- `ADD A,x` in its three forms (R215 to R217): the incoming Carry plays no part; Zero is that of the 8-bit result (the
spec's decision D10). -/
def Obligations.AddResult : Prop :=
  ∀ (i : Instr) (n : Nat) (s s1 : State) (b : Byte), AluForm .add i n s s1 b →
    ∃ t, exec i s = .next t ∧ (t.reg .A).toNat = ((s.reg .A).toNat + b.toNat) % 256 ∧ SameRegsBut [.A] s t ∧
      FlagsAre s t (((s.reg .A).toNat + b.toNat) % 256 = 0) False ((s.reg .A).toNat % 16 + b.toNat % 16 > 0x0F)
        ((s.reg .A).toNat + b.toNat > 0xFF) ∧
      t.regs.pc = s.regs.pc + BitVec.ofNat 16 n ∧ SameOutside s1 t

/-- `SUB x` in its three forms (R218 to R220; the spec's decisions D11 and D12). -/
def Obligations.SubtractResult : Prop :=
  ∀ (i : Instr) (n : Nat) (s s1 : State) (b : Byte), AluForm .sub i n s s1 b →
    ∃ t, exec i s = .next t ∧ (t.reg .A).toNat = ((s.reg .A).toNat + 256 - b.toNat) % 256 ∧ SameRegsBut [.A] s t ∧
      FlagsAre s t (s.reg .A = b) True ((s.reg .A).toNat % 16 < b.toNat % 16) ((s.reg .A).toNat < b.toNat) ∧
      t.regs.pc = s.regs.pc + BitVec.ofNat 16 n ∧ SameOutside s1 t

/-- `CP x` in its three forms (R221 to R223): the flags of `SUB`, and `A` is not written (decision D11). -/
def Obligations.CompareResult : Prop :=
  ∀ (i : Instr) (n : Nat) (s s1 : State) (b : Byte), AluForm .cp i n s s1 b →
    ∃ t, exec i s = .next t ∧ SameRegsBut [] s t ∧
      FlagsAre s t (s.reg .A = b) True ((s.reg .A).toNat % 16 < b.toNat % 16) ((s.reg .A).toNat < b.toNat) ∧
      t.regs.pc = s.regs.pc + BitVec.ofNat 16 n ∧ SameOutside s1 t

/-- `XOR x` in its three forms (R224 to R226). -/
def Obligations.XorResult : Prop :=
  ∀ (i : Instr) (n : Nat) (s s1 : State) (b : Byte), AluForm .xor i n s s1 b →
    ∃ t, exec i s = .next t ∧ (∀ k, k < 8 → (t.reg .A).getLsbD k = ((s.reg .A).getLsbD k != b.getLsbD k)) ∧
      SameRegsBut [.A] s t ∧ FlagsAre s t (s.reg .A = b) False False False ∧
      t.regs.pc = s.regs.pc + BitVec.ofNat 16 n ∧ SameOutside s1 t

/-- `CPL` (R227): every bit of `A` turned over, N and H set, Zero and Carry as they were. Its byte 0x2F is the spec's decision
D3, from general knowledge (log 18). -/
def Obligations.ComplementResult : Prop :=
  encode .cpl = [0x2F] ∧
  ∀ s : State, ∃ t, exec .cpl s = .next t ∧ (t.reg .A).toNat = 255 - (s.reg .A).toNat ∧ SameRegsBut [.A] s t ∧
    FlagsAre s t (s.flagZ = true) True True (s.flagC = true) ∧ t.regs.pc = s.regs.pc + 1 ∧ SameOutside s t

/-! ## Rotates and shifts (spec/44_rotate_shift.md) -/

/-- The 56 prefixed instructions (R230, R236 to R249): the result of R230's table goes back to the operand, Zero from the
result, N and H cleared, Carry the bit shifted out. Which operations there are is the spec's decision D16, the `(HL)`
forms are D5. -/
def Obligations.RotateResult : Prop :=
  ∀ (k : RotKind) (o : Opnd8) (s s1 : State) (v : Byte), OpndReads o s s1 v →
    ∃ (w : Byte) (out : Bool) (t : State), exec (Instr.ofRot k o) s = .next t ∧
      RotIs k v.toNat s.flagC.toNat w.toNat out.toNat ∧ OpndGets o w s1 t ∧
      FlagsAre s t (w.toNat = 0) False False (out = true) ∧ t.regs.pc = s.regs.pc + 2

/-- `RLCA`, `RRCA`, `RLA`, `RRA` (R231 to R234): the same on `A`, Zero from the result too, one byte long. -/
def Obligations.AccumulatorRotateResult : Prop :=
  ∀ (k : RotKind) (i : Instr) (s : State), Instr.ofRotA k = some i →
    ∃ (out : Bool) (t : State), exec i s = .next t ∧
      RotIs k (s.reg .A).toNat s.flagC.toNat (t.reg .A).toNat out.toNat ∧ SameRegsBut [.A] s t ∧
      FlagsAre s t ((t.reg .A).toNat = 0) False False (out = true) ∧ t.regs.pc = s.regs.pc + 1 ∧ SameOutside s t

/-- The prefix row (R235): with a mapped second byte it completes as the instruction of the pair, with any other it is
Halted and changes nothing. -/
def Obligations.PrefixDispatch : Prop :=
  (∀ (k : RotKind) (o : Opnd8) (op2 : Byte) (s : State), encode (Instr.ofRot k o) = [0xCB, op2] →
    ∃ t, exec (.prefix_CB op2) s = .next t ∧ exec (Instr.ofRot k o) s = .next t) ∧
  (∀ op2 : Byte, unmappedSecondary op2 = false → ∃ k o, encode (Instr.ofRot k o) = [0xCB, op2]) ∧
  (∀ (op2 : Byte) (s : State), unmappedSecondary op2 = true →
    exec (.prefix_CB op2) s = .fault (.unmappedOpcode .secondary op2 s.regs.pc s))

/-! ## System (spec/45_system.md) -/

/-- `DI` and `EI` (R260, R261) write `IME` at once and nothing else but `PC` (the spec's decision D15). -/
def Obligations.InterruptEnableWriters : Prop :=
  ∀ (i : Instr) (b : Bool) (s : State), (i = .di ∧ b = false) ∨ (i = .ei ∧ b = true) →
    ∃ t, exec i s = .next t ∧ t.regs.ime = b ∧ (∀ r, t.reg r = s.reg r) ∧ t.regs.sp = s.regs.sp ∧
      t.regs.f = s.regs.f ∧ t.regs.pc = s.regs.pc + 1 ∧ SameOutside s t

/-! ## Frames of memory (spec/20_memory.md R57) -/

/-- An instruction that stores nothing leaves the bank controller, the arrays and the cartridge, and every address reads
as before. -/
def Obligations.NonStoringKeepMemory : Prop :=
  ∀ (i : Instr) (s t : State), exec i s = .next t → StoresNothing i → SameStorage s t ∧ BytesElsewhere [] s t

/-- A store at `HL` outside the control ranges leaves every byte but the one that `HL` reaches, under whatever alias; in
the control ranges it leaves every array (R57, R64, R70). -/
def Obligations.HLStoresStayAtHL : Prop :=
  ∀ (i : Instr) (s t : State), exec i s = .next t → StoresAtHL i →
    (0x8000 ≤ s.hl.toNat → t.mbc = s.mbc ∧ BytesElsewhere [s.hl] s t) ∧
    (s.hl.toNat ≤ 0x7FFF → t.ram = s.ram) ∧ t.cart = s.cart

/-- `LD (a16),A` and the pushing instructions likewise: they leave every byte but those at `a16`, or at `SP-1` and `SP-2`. -/
def Obligations.OtherStoresStayInPlace : Prop :=
  (∀ (x : Word) (s t : State), exec (.ld_ma16_A x) s = .next t →
    (0x8000 ≤ x.toNat → t.mbc = s.mbc ∧ BytesElsewhere [x] s t) ∧ (x.toNat ≤ 0x7FFF → t.ram = s.ram) ∧
      t.cart = s.cart) ∧
  (∀ (i : Instr) (s t : State), exec i s = .next t → StoresOnStack i →
    (0x8000 ≤ (s.regs.sp - 1).toNat → 0x8000 ≤ (s.regs.sp - 2).toNat →
      t.mbc = s.mbc ∧ BytesElsewhere [s.regs.sp - 1, s.regs.sp - 2] s t) ∧
    ((s.regs.sp - 1).toNat ≤ 0x7FFF → (s.regs.sp - 2).toNat ≤ 0x7FFF → t.ram = s.ram) ∧ t.cart = s.cart)

/-! ## Registers and the bus (spec/10_state.md R12, spec/20_memory.md) -/

/-- A pair is a view of its two registers (R12): `BC = B:C`, `DE = D:E`, `HL = H:L`, `AF = A:F`; a write of a pair writes
those two and nothing else, and a write of `AF` forces bits 3 to 0 of `F` to zero. -/
def Obligations.PairsAreViews : Prop :=
  (∀ s : State, (s.pair .BC).toNat = s.regs.b.toNat * 256 + s.regs.c.toNat ∧
    (s.pair .DE).toNat = s.regs.d.toNat * 256 + s.regs.e.toNat ∧
    (s.pair .HL).toNat = s.regs.h.toNat * 256 + s.regs.l.toNat ∧
    s.af.toNat = s.regs.a.toNat * 256 + s.regs.f.toNat) ∧
  (∀ (p : Pair) (s : State) (w : Word), ∃ hi lo : Byte, hi.toNat = w.toNat / 256 ∧ lo.toNat = w.toNat % 256 ∧
    s.setPair p w =
      match p with
      | .BC => { s with regs.b := hi, regs.c := lo }
      | .DE => { s with regs.d := hi, regs.e := lo }
      | .HL => { s with regs.h := hi, regs.l := lo }) ∧
  (∀ (s : State) (w : Word), ∃ hi lo : Byte, hi.toNat = w.toNat / 256 ∧ lo.toNat = w.toNat % 256 / 16 * 16 ∧
    s.setAF w = { s with regs.a := hi, regs.f := lo })

/-- The plain arrays (R62, R63, R65, R66): each address of the range reads its own byte with no side effect, and a write
stores the whole byte there, to be read back, and does nothing else. -/
def Obligations.PlainArrays : Prop :=
  ∀ (a : Word) (v : Byte) (s : State), s.Legal →
    (0x8000 ≤ a.toNat → a.toNat ≤ 0x9FFF → busRead a s = (s.ram.vram.read (a.toNat - 0x8000), s) ∧
      ∃ m, busWrite a v s = { s with ram.vram := m } ∧ m.read (a.toNat - 0x8000) = v ∧
        ∀ k, k ≠ a.toNat - 0x8000 → m.read k = s.ram.vram.read k) ∧
    (0xC000 ≤ a.toNat → a.toNat ≤ 0xDFFF → busRead a s = (s.ram.wram.read (a.toNat - 0xC000), s) ∧
      ∃ m, busWrite a v s = { s with ram.wram := m } ∧ m.read (a.toNat - 0xC000) = v ∧
        ∀ k, k ≠ a.toNat - 0xC000 → m.read k = s.ram.wram.read k) ∧
    (0xFE00 ≤ a.toNat → a.toNat ≤ 0xFE9F → busRead a s = (s.ram.oam.read (a.toNat - 0xFE00), s) ∧
      ∃ m, busWrite a v s = { s with ram.oam := m } ∧ m.read (a.toNat - 0xFE00) = v ∧
        ∀ k, k ≠ a.toNat - 0xFE00 → m.read k = s.ram.oam.read k) ∧
    (0xFF00 ≤ a.toNat → a.toNat ≤ 0xFF7F → busRead a s = (s.ram.io.read (a.toNat - 0xFF00), s) ∧
      ∃ m, busWrite a v s = { s with ram.io := m } ∧ m.read (a.toNat - 0xFF00) = v ∧
        ∀ k, k ≠ a.toNat - 0xFF00 → m.read k = s.ram.io.read k) ∧
    (0xFF80 ≤ a.toNat → a.toNat ≤ 0xFFFE → busRead a s = (s.ram.hram.read (a.toNat - 0xFF80), s) ∧
      ∃ m, busWrite a v s = { s with ram.hram := m } ∧ m.read (a.toNat - 0xFF80) = v ∧
        ∀ k, k ≠ a.toNat - 0xFF80 → m.read k = s.ram.hram.read k) ∧
    (a.toNat = 0xFFFF → busRead a s = (s.ram.ie, s) ∧ busWrite a v s = { s with ram.ie := v })

/-- Echo RAM (R64; the offset is the spec's decision D33): `0xE000 + k` and `0xC000 + k` are one byte for reading and for
writing. The hole 0xFEA0 to 0xFEFF reads 0xFF and drops writes (R67; decision D17, log 14). -/
def Obligations.EchoAndHole : Prop :=
  (∀ (k : Nat) (v : Byte) (s : State), k ≤ 0x1DFF →
    busRead (BitVec.ofNat 16 (0xE000 + k)) s = busRead (BitVec.ofNat 16 (0xC000 + k)) s ∧
    busWrite (BitVec.ofNat 16 (0xE000 + k)) v s = busWrite (BitVec.ofNat 16 (0xC000 + k)) v s) ∧
  (∀ (a : Word) (v : Byte) (s : State), 0xFEA0 ≤ a.toNat → a.toNat ≤ 0xFEFF →
    busRead a s = (0xFF, s) ∧ busWrite a v s = s)

/-- ROM reads (R60, R61, R75) never change state: bank 0 is fixed, the window shows the selected bank, and beyond the image
the byte is 0xFF (R59; the spec's decisions D17 and D18, log 14). -/
def Obligations.RomReads : Prop :=
  ∀ (a : Word) (s : State) (off : Nat),
    (a.toNat ≤ 0x3FFF ∧ off = a.toNat) ∨
      (0x4000 ≤ a.toNat ∧ a.toNat ≤ 0x7FFF ∧ off = (a.toNat - 0x4000) + s.mbc.romBank.toNat * 0x4000) →
    (off < s.cart.romLen → busRead a s = (s.cart.rom.read off, s)) ∧
    (s.cart.romLen ≤ off → busRead a s = (0xFF, s))

/-- The external window without an RTC register (R80 to R83): disabled, it reads 0xFF and drops writes; enabled, it reaches
the banked array, and beyond `RAM_SIZE` it reads 0xFF and drops writes (the spec's decisions D17 and D18, log 14). -/
def Obligations.ExternalRam : Prop :=
  ∀ (a : Word) (v : Byte) (s : State), 0xA000 ≤ a.toNat → a.toNat ≤ 0xBFFF → s.Legal →
    (s.mbc.ramEnabled = false → busRead a s = (0xFF, s) ∧ busWrite a v s = s) ∧
    (s.mbc.ramEnabled = true → s.cart.mbcType ≠ .mbc7bitRtc ∨ s.mbc.ramBank.toNat ≤ 3 →
      ∀ off, off = (a.toNat - 0xA000) + s.mbc.ramBank.toNat * 0x2000 →
        (off < s.cart.ramSize.bytes → busRead a s = (s.ram.eram.read off, s) ∧
          ∃ m, busWrite a v s = { s with ram.eram := m } ∧ m.read off = v ∧
            ∀ k, k ≠ off → m.read k = s.ram.eram.read k) ∧
        (s.cart.ramSize.bytes ≤ off → busRead a s = (0xFF, s) ∧ busWrite a v s = s))

/-- The external window with an RTC register selected (R80, R81, 60_exceptions.md R300, R306, R307): every address is that
register; a read refreshes an unlatched clock first and nothing else, a write stores the byte whole. One register set
with no snapshot copy is the spec's decision D25. -/
def Obligations.RtcWindow : Prop :=
  ∀ (a : Word) (v : Byte) (s : State) (reg : RtcReg), 0xA000 ≤ a.toNat → a.toNat ≤ 0xBFFF → s.mbc.ramEnabled = true →
    s.cart.mbcType = .mbc7bitRtc →
    (s.mbc.ramBank.toNat, reg) ∈
      [(0x08, RtcReg.seconds), (0x09, .minutes), (0x0A, .hours), (0x0B, .dayLow), (0x0C, .dayHigh)] →
    (s.rtc.latched = true → busRead a s = (s.rtc.get reg, s)) ∧
    (s.rtc.latched = false →
      busRead a s = ((s.rtc.refresh s.clock.now).get reg, { s with rtc := s.rtc.refresh s.clock.now })) ∧
    busWrite a v s = { s with rtc := s.rtc.put reg v } ∧
    (s.rtc.put reg v).get reg = v ∧ (∀ other, other ≠ reg → (s.rtc.put reg v).get other = s.rtc.get other) ∧
    (s.rtc.put reg v).last = s.rtc.last ∧ (s.rtc.put reg v).latched = s.rtc.latched

/-- A write to 0x0000 to 0x1FFF enables the external window exactly when the byte's low nibble is 0xA, and does nothing else
(R71). That the three controller types share this rule is the spec's decision D32 (log 18). -/
def Obligations.RamEnableWrites : Prop :=
  ∀ (a : Word) (v : Byte) (s : State), a.toNat ≤ 0x1FFF → s.cart.mbcType ≠ .romOnly →
    (v.toNat % 16 = 0x0A → busWrite a v s = { s with mbc.ramEnabled := true }) ∧
    (v.toNat % 16 ≠ 0x0A → busWrite a v s = { s with mbc.ramEnabled := false })

/-- The other control writes (R70, R72, R73, R74): what each range does on each controller type. The masks, the RTC
selectors, the latch test and the no-op on a ROM-only cartridge are the spec's decisions D20, D23, D24 and D32. -/
def Obligations.BankControlWrites : Prop :=
  ∀ (a : Word) (v : Byte) (s : State), a.toNat ≤ 0x7FFF →
    (s.cart.mbcType = .romOnly → busWrite a v s = s) ∧
    (s.cart.mbcType ≠ .romOnly → 0x2000 ≤ a.toNat → a.toNat ≤ 0x3FFF →
      ∃ b : Byte, busWrite a v s = { s with mbc.romBank := b } ∧
        (s.cart.mbcType = .mbc5bit → b.toNat = if v.toNat % 32 = 0 then 1 else v.toNat % 32) ∧
        (s.cart.mbcType = .mbc7bitRtc → b.toNat = v.toNat % 128) ∧ (s.cart.mbcType = .mbc8bit → b = v)) ∧
    (s.cart.mbcType ≠ .romOnly → 0x4000 ≤ a.toNat → a.toNat ≤ 0x5FFF →
      ∃ b : Byte, busWrite a v s = { s with mbc.ramBank := b } ∧
        (s.cart.mbcType = .mbc7bitRtc ∧ 0x08 ≤ v.toNat ∧ v.toNat ≤ 0x0C → b = v) ∧
        (¬ (s.cart.mbcType = .mbc7bitRtc ∧ 0x08 ≤ v.toNat ∧ v.toNat ≤ 0x0C) → b.toNat = v.toNat % 4)) ∧
    (0x6000 ≤ a.toNat → s.cart.mbcType = .mbc7bitRtc →
      (v = 0x00 → busWrite a v s = { s with rtc.latched := false }) ∧
      (v = 0x01 → busWrite a v s = { s with rtc := { s.rtc.refresh s.clock.now with latched := true } }) ∧
      (v ≠ 0x00 → v ≠ 0x01 → busWrite a v s = s)) ∧
    (0x6000 ≤ a.toNat → s.cart.mbcType ≠ .mbc7bitRtc → busWrite a v s = s)

/-- Reads repeat (R68): within one step a byte reads the same again after any other read, a read that reaches no RTC
register changes nothing, and a write in plain storage is what the next read gives (R90). -/
def Obligations.ReadsRepeat : Prop :=
  (∀ (a b : Word) (s : State), (busRead a (busRead b s).2).1 = (busRead a s).1) ∧
  (∀ (a : Word) (s : State), QuietRead s a → (busRead a s).2 = s) ∧
  (∀ (a : Word) (v : Byte) (s : State), s.Legal → PlainStorage s a → (busRead a (busWrite a v s)).1 = v)

/-! ## The real-time clock (spec/60_exceptions.md section 4) -/

/-- A refresh of a running clock (R303, 10_state.md R25): the time shown, in seconds modulo 512 days, grows by the elapsed
seconds (none where the clock ran backwards), the fields are in range afterwards, overflow is set exactly by passing
512 days and stays once set, bits 6 to 1 of the high day byte and the latch stay, and the sample is recorded. The exact
arithmetic is the spec's decision D26. -/
def Obligations.RtcRefreshArithmetic : Prop :=
  ∀ (r q : Rtc) (now total : Nat), r.dh.getLsbD 6 = false → q = r.refresh now →
    total = r.s.toNat + 60 * r.m.toNat + 3600 * r.h.toNat + 86400 * (r.dl.toNat + 256 * (r.dh.toNat % 2)) →
    q.s.toNat + 60 * q.m.toNat + 3600 * q.h.toNat + 86400 * (q.dl.toNat + 256 * (q.dh.toNat % 2)) =
      (total + (if r.last ≤ now then now - r.last else 0)) % (512 * 86400) ∧
    q.s.toNat < 60 ∧ q.m.toNat < 60 ∧ q.h.toNat < 24 ∧
    (q.dh.getLsbD 7 = true ↔
      r.dh.getLsbD 7 = true ∨ 512 * 86400 ≤ total + (if r.last ≤ now then now - r.last else 0)) ∧
    (∀ k, 1 ≤ k → k ≤ 6 → q.dh.getLsbD k = r.dh.getLsbD k) ∧ q.latched = r.latched ∧ q.last = now

/-- With the halt bit set a refresh changes nothing (R308 point 3, R303); two refreshes in time order are one; and on every
other controller type no step touches the clock (10_state.md R24; log 11). -/
def Obligations.RtcStandsStill : Prop :=
  (∀ (r : Rtc) (now : Nat), r.dh.getLsbD 6 = true → r.refresh now = r) ∧
  (∀ (r : Rtc) (t u : Nat), r.last ≤ t → t ≤ u → (r.refresh t).refresh u = r.refresh u) ∧
  (∀ s t : State, s.cart.mbcType ≠ .mbc7bitRtc → step s = .next t → t.rtc = s.rtc)

/-- The worked example of R309: 23:59:59 on day 255 and one second later. -/
def Obligations.RtcWorkedExample : Prop :=
  ∀ (t : Nat) (latched : Bool),
    (Rtc.mk 59 59 23 0xFF 0x00 latched t).refresh (t + 1) = Rtc.mk 0 0 0 0x00 0x01 latched (t + 1)
end

