-- ==== Sys2Proof/Laws/Memory.lean ====
section
/-! SUPPORT. Laws of the sparse byte arrays: read after write, the canonical form, equality from equal reads. -/

namespace Sys2Proof.Machine

@[simp] theorem Memory.read_nil (k : Nat) : Memory.read [] k = Memory.unlisted := rfl

theorem Memory.read_cons (a : Nat) (v : Byte) (rest : Memory) (k : Nat) :
    Memory.read ((a, v) :: rest) k = if a = k then v else Memory.read rest k := rfl

/-- Below the first index of a canonical array every byte is unlisted. -/
theorem Memory.read_of_lt {size lo k : Nat} {m : Memory} (h : Memory.wfFrom size lo m) (hk : k < lo) :
    Memory.read m k = Memory.unlisted := by
  induction m generalizing lo with
  | nil => rfl
  | cons c rest ih =>
    obtain ⟨a, v⟩ := c
    simp only [Memory.wfFrom, Bool.and_eq_true, decide_eq_true_eq] at h
    rw [Memory.read_cons, if_neg (by omega)]
    exact ih h.2 (by omega)

theorem Memory.wfFrom_mono {size lo lo' : Nat} {m : Memory} (h : Memory.wfFrom size lo m) (hlo : lo' ≤ lo) :
    Memory.wfFrom size lo' m := by
  cases m with
  | nil => rfl
  | cons c rest =>
    obtain ⟨a, v⟩ := c
    simp only [Memory.wfFrom, Bool.and_eq_true, decide_eq_true_eq] at h ⊢
    exact ⟨⟨⟨by omega, h.1.1.2⟩, h.1.2⟩, h.2⟩

theorem Memory.wfFrom_cell {size lo k : Nat} {v : Byte} {rest : Memory} (hk : k < size) (hlo : lo ≤ k)
    (h : Memory.wfFrom size (k + 1) rest) : Memory.wfFrom size lo (Memory.cell k v rest) := by
  unfold Memory.cell
  split
  · exact Memory.wfFrom_mono h (by omega)
  · simp only [Memory.wfFrom, Bool.and_eq_true, decide_eq_true_eq]
    exact ⟨⟨⟨hlo, hk⟩, ‹_›⟩, h⟩

/-- A write keeps the canonical form. -/
theorem Memory.wfFrom_write {size lo k : Nat} {v : Byte} {m : Memory} (h : Memory.wfFrom size lo m) (hlo : lo ≤ k)
    (hk : k < size) : Memory.wfFrom size lo (Memory.write m k v) := by
  induction m generalizing lo with
  | nil => exact Memory.wfFrom_cell hk hlo rfl
  | cons c rest ih =>
    obtain ⟨a, w⟩ := c
    have h' := h
    simp only [Memory.wfFrom, Bool.and_eq_true, decide_eq_true_eq] at h
    unfold Memory.write
    split
    · refine Memory.wfFrom_cell hk hlo ?_
      simp only [Memory.wfFrom, Bool.and_eq_true, decide_eq_true_eq]
      exact ⟨⟨⟨by omega, h.1.1.2⟩, h.1.2⟩, h.2⟩
    · split
      · subst_vars
        exact Memory.wfFrom_cell hk hlo h.2
      · simp only [Memory.wfFrom, Bool.and_eq_true, decide_eq_true_eq]
        exact ⟨⟨⟨h.1.1.1, h.1.1.2⟩, h.1.2⟩, ih h.2 (by omega)⟩

/-- A write inside the array keeps the canonical form. -/
theorem Memory.wf_write {size k : Nat} {v : Byte} {m : Memory} (h : Memory.wf size m) (hk : k < size) :
    Memory.wf size (Memory.write m k v) :=
  Memory.wfFrom_write h (Nat.zero_le k) hk

@[simp] theorem Memory.wf_nil (size : Nat) : Memory.wf size [] = true := rfl

theorem Memory.read_cell_same {size k : Nat} {v : Byte} {rest : Memory} (h : Memory.wfFrom size (k + 1) rest) :
    Memory.read (Memory.cell k v rest) k = v := by
  unfold Memory.cell
  split
  · rw [Memory.read_of_lt h (Nat.lt_succ_self k)]
    exact (by assumption : v = _).symm
  · rw [Memory.read_cons, if_pos rfl]

theorem Memory.read_cell_other {k j : Nat} {v : Byte} {rest : Memory} (h : j ≠ k) :
    Memory.read (Memory.cell k v rest) j = Memory.read rest j := by
  unfold Memory.cell
  split
  · rfl
  · rw [Memory.read_cons, if_neg (Ne.symm h)]

/-- Read after write, same index. -/
theorem Memory.read_write_same {size lo k : Nat} {v : Byte} {m : Memory} (h : Memory.wfFrom size lo m) :
    Memory.read (Memory.write m k v) k = v := by
  induction m generalizing lo with
  | nil => exact Memory.read_cell_same (size := size) rfl
  | cons c rest ih =>
    obtain ⟨a, w⟩ := c
    have h' := h
    simp only [Memory.wfFrom, Bool.and_eq_true, decide_eq_true_eq] at h
    unfold Memory.write
    split
    · refine Memory.read_cell_same (size := size) ?_
      simp only [Memory.wfFrom, Bool.and_eq_true, decide_eq_true_eq]
      exact ⟨⟨⟨by omega, h.1.1.2⟩, h.1.2⟩, h.2⟩
    · split
      · subst_vars
        exact Memory.read_cell_same h.2
      · rw [Memory.read_cons, if_neg (by omega)]
        exact ih h.2

/-- Read after write, another index: no canonical form needed. -/
theorem Memory.read_write_other {k j : Nat} {v : Byte} (m : Memory) (h : j ≠ k) :
    Memory.read (Memory.write m k v) j = Memory.read m j := by
  induction m with
  | nil => exact Memory.read_cell_other h
  | cons c rest ih =>
    obtain ⟨a, w⟩ := c
    unfold Memory.write
    split
    · exact Memory.read_cell_other h
    · split
      · subst_vars
        rw [Memory.read_cell_other h, Memory.read_cons, if_neg (Ne.symm h)]
      · rw [Memory.read_cons, Memory.read_cons, ih]

/-- Two canonical arrays with equal bytes are equal data. -/
theorem Memory.ext_of_read {size : Nat} : ∀ {lo : Nat} {m n : Memory}, Memory.wfFrom size lo m → Memory.wfFrom size lo n →
    (∀ k, Memory.read m k = Memory.read n k) → m = n
  | _, [], [], _, _, _ => rfl
  | _, [], (a, v) :: rest, _, hn, h => by
    simp only [Memory.wfFrom, Bool.and_eq_true, decide_eq_true_eq] at hn
    have := h a
    rw [Memory.read_cons, if_pos rfl] at this
    exact absurd this.symm hn.1.2
  | _, (a, v) :: rest, [], hm, _, h => by
    simp only [Memory.wfFrom, Bool.and_eq_true, decide_eq_true_eq] at hm
    have := h a
    rw [Memory.read_cons, if_pos rfl] at this
    exact absurd this hm.1.2
  | _, (a, v) :: rest, (b, w) :: more, hm, hn, h => by
    simp only [Memory.wfFrom, Bool.and_eq_true, decide_eq_true_eq] at hm hn
    have hab : a = b := by
      rcases Nat.lt_trichotomy a b with hlt | heq | hgt
      · have := h a
        rw [Memory.read_cons, if_pos rfl, Memory.read_cons, if_neg (by omega),
          Memory.read_of_lt hn.2 (by omega)] at this
        exact absurd this hm.1.2
      · exact heq
      · have := h b
        rw [Memory.read_cons, if_neg (by omega), Memory.read_of_lt hm.2 (by omega), Memory.read_cons,
          if_pos rfl] at this
        exact absurd this.symm hn.1.2
    subst hab
    have hvw := h a
    rw [Memory.read_cons, if_pos rfl, Memory.read_cons, if_pos rfl] at hvw
    subst hvw
    congr 1
    refine Memory.ext_of_read hm.2 hn.2 fun k => ?_
    have hk := h k
    rw [Memory.read_cons, Memory.read_cons] at hk
    by_cases hka : a = k
    · subst hka
      rw [Memory.read_of_lt hm.2 (by omega), Memory.read_of_lt hn.2 (by omega)]
    · simpa [hka] using hk

end Sys2Proof.Machine
end

