-- ==== Sys2Proof/Laws/State.lean ====
section
/-! SUPPORT. One lemma per field per update of State, so that no proof unfolds a record update. -/

namespace Sys2Proof.Machine

/-! ## Registers other than `F`, `SP`, `PC`, `IME` -/

@[simp] theorem State.setReg_mbc (s : State) (d : Reg8) (v : Byte) : (s.setReg d v).mbc = s.mbc := by cases d <;> rfl
@[simp] theorem State.setReg_rtc (s : State) (d : Reg8) (v : Byte) : (s.setReg d v).rtc = s.rtc := by cases d <;> rfl
@[simp] theorem State.setReg_ram (s : State) (d : Reg8) (v : Byte) : (s.setReg d v).ram = s.ram := by cases d <;> rfl
@[simp] theorem State.setReg_cart (s : State) (d : Reg8) (v : Byte) : (s.setReg d v).cart = s.cart := by cases d <;> rfl
@[simp] theorem State.setReg_clock (s : State) (d : Reg8) (v : Byte) : (s.setReg d v).clock = s.clock := by cases d <;> rfl
@[simp] theorem State.setReg_regs_f (s : State) (d : Reg8) (v : Byte) : (s.setReg d v).regs.f = s.regs.f := by cases d <;> rfl
@[simp] theorem State.setReg_regs_sp (s : State) (d : Reg8) (v : Byte) : (s.setReg d v).regs.sp = s.regs.sp := by cases d <;> rfl
@[simp] theorem State.setReg_regs_pc (s : State) (d : Reg8) (v : Byte) : (s.setReg d v).regs.pc = s.regs.pc := by cases d <;> rfl
@[simp] theorem State.setReg_regs_ime (s : State) (d : Reg8) (v : Byte) : (s.setReg d v).regs.ime = s.regs.ime := by cases d <;> rfl

theorem State.setReg_reg (s : State) (d r : Reg8) (v : Byte) : (s.setReg d v).reg r = if r = d then v else s.reg r := by
  cases d <;> cases r <;> rfl

@[simp] theorem State.setReg_reg_same (s : State) (d : Reg8) (v : Byte) : (s.setReg d v).reg d = v := by cases d <;> rfl

theorem State.setReg_reg_other (s : State) {d r : Reg8} (v : Byte) (h : r ≠ d) : (s.setReg d v).reg r = s.reg r := by
  rw [State.setReg_reg, if_neg h]

/-! ## `PC`, `SP`, `IME` -/

@[simp] theorem State.jump_mbc (s : State) (w : Word) : (s.jump w).mbc = s.mbc := rfl
@[simp] theorem State.jump_rtc (s : State) (w : Word) : (s.jump w).rtc = s.rtc := rfl
@[simp] theorem State.jump_ram (s : State) (w : Word) : (s.jump w).ram = s.ram := rfl
@[simp] theorem State.jump_cart (s : State) (w : Word) : (s.jump w).cart = s.cart := rfl
@[simp] theorem State.jump_clock (s : State) (w : Word) : (s.jump w).clock = s.clock := rfl
@[simp] theorem State.jump_regs_f (s : State) (w : Word) : (s.jump w).regs.f = s.regs.f := rfl
@[simp] theorem State.jump_regs_sp (s : State) (w : Word) : (s.jump w).regs.sp = s.regs.sp := rfl
@[simp] theorem State.jump_regs_pc (s : State) (w : Word) : (s.jump w).regs.pc = w := rfl
@[simp] theorem State.jump_regs_ime (s : State) (w : Word) : (s.jump w).regs.ime = s.regs.ime := rfl
@[simp] theorem State.jump_reg (s : State) (w : Word) (r : Reg8) : (s.jump w).reg r = s.reg r := by cases r <;> rfl
@[simp] theorem State.jump_hl (s : State) (w : Word) : (s.jump w).hl = s.hl := rfl

@[simp] theorem State.setSP_mbc (s : State) (w : Word) : (s.setSP w).mbc = s.mbc := rfl
@[simp] theorem State.setSP_rtc (s : State) (w : Word) : (s.setSP w).rtc = s.rtc := rfl
@[simp] theorem State.setSP_ram (s : State) (w : Word) : (s.setSP w).ram = s.ram := rfl
@[simp] theorem State.setSP_cart (s : State) (w : Word) : (s.setSP w).cart = s.cart := rfl
@[simp] theorem State.setSP_clock (s : State) (w : Word) : (s.setSP w).clock = s.clock := rfl
@[simp] theorem State.setSP_regs_f (s : State) (w : Word) : (s.setSP w).regs.f = s.regs.f := rfl
@[simp] theorem State.setSP_regs_sp (s : State) (w : Word) : (s.setSP w).regs.sp = w := rfl
@[simp] theorem State.setSP_regs_pc (s : State) (w : Word) : (s.setSP w).regs.pc = s.regs.pc := rfl
@[simp] theorem State.setSP_regs_ime (s : State) (w : Word) : (s.setSP w).regs.ime = s.regs.ime := rfl
@[simp] theorem State.setSP_reg (s : State) (w : Word) (r : Reg8) : (s.setSP w).reg r = s.reg r := by cases r <;> rfl
@[simp] theorem State.setSP_hl (s : State) (w : Word) : (s.setSP w).hl = s.hl := rfl

@[simp] theorem State.setIME_mbc (s : State) (b : Bool) : (s.setIME b).mbc = s.mbc := rfl
@[simp] theorem State.setIME_rtc (s : State) (b : Bool) : (s.setIME b).rtc = s.rtc := rfl
@[simp] theorem State.setIME_ram (s : State) (b : Bool) : (s.setIME b).ram = s.ram := rfl
@[simp] theorem State.setIME_cart (s : State) (b : Bool) : (s.setIME b).cart = s.cart := rfl
@[simp] theorem State.setIME_clock (s : State) (b : Bool) : (s.setIME b).clock = s.clock := rfl
@[simp] theorem State.setIME_regs_f (s : State) (b : Bool) : (s.setIME b).regs.f = s.regs.f := rfl
@[simp] theorem State.setIME_regs_sp (s : State) (b : Bool) : (s.setIME b).regs.sp = s.regs.sp := rfl
@[simp] theorem State.setIME_regs_pc (s : State) (b : Bool) : (s.setIME b).regs.pc = s.regs.pc := rfl
@[simp] theorem State.setIME_regs_ime (s : State) (b : Bool) : (s.setIME b).regs.ime = b := rfl
@[simp] theorem State.setIME_reg (s : State) (b : Bool) (r : Reg8) : (s.setIME b).reg r = s.reg r := by cases r <;> rfl
@[simp] theorem State.setIME_hl (s : State) (b : Bool) : (s.setIME b).hl = s.hl := rfl

@[simp] theorem State.advance_mbc (s : State) (n : Nat) : (s.advance n).mbc = s.mbc := rfl
@[simp] theorem State.advance_rtc (s : State) (n : Nat) : (s.advance n).rtc = s.rtc := rfl
@[simp] theorem State.advance_ram (s : State) (n : Nat) : (s.advance n).ram = s.ram := rfl
@[simp] theorem State.advance_cart (s : State) (n : Nat) : (s.advance n).cart = s.cart := rfl
@[simp] theorem State.advance_clock (s : State) (n : Nat) : (s.advance n).clock = s.clock := rfl
@[simp] theorem State.advance_regs_f (s : State) (n : Nat) : (s.advance n).regs.f = s.regs.f := rfl
@[simp] theorem State.advance_regs_sp (s : State) (n : Nat) : (s.advance n).regs.sp = s.regs.sp := rfl
@[simp] theorem State.advance_regs_pc (s : State) (n : Nat) : (s.advance n).regs.pc = s.regs.pc + BitVec.ofNat 16 n := rfl
@[simp] theorem State.advance_regs_ime (s : State) (n : Nat) : (s.advance n).regs.ime = s.regs.ime := rfl
@[simp] theorem State.advance_reg (s : State) (n : Nat) (r : Reg8) : (s.advance n).reg r = s.reg r := by cases r <;> rfl
@[simp] theorem State.advance_hl (s : State) (n : Nat) : (s.advance n).hl = s.hl := rfl

/-! ## Flags -/

@[simp] theorem State.setZNH_mbc (s : State) (z n h : Bool) : (s.setZNH z n h).mbc = s.mbc := rfl
@[simp] theorem State.setZNH_rtc (s : State) (z n h : Bool) : (s.setZNH z n h).rtc = s.rtc := rfl
@[simp] theorem State.setZNH_ram (s : State) (z n h : Bool) : (s.setZNH z n h).ram = s.ram := rfl
@[simp] theorem State.setZNH_cart (s : State) (z n h : Bool) : (s.setZNH z n h).cart = s.cart := rfl
@[simp] theorem State.setZNH_clock (s : State) (z n h : Bool) : (s.setZNH z n h).clock = s.clock := rfl
@[simp] theorem State.setZNH_regs_sp (s : State) (z n h : Bool) : (s.setZNH z n h).regs.sp = s.regs.sp := rfl
@[simp] theorem State.setZNH_regs_pc (s : State) (z n h : Bool) : (s.setZNH z n h).regs.pc = s.regs.pc := rfl
@[simp] theorem State.setZNH_regs_ime (s : State) (z n h : Bool) : (s.setZNH z n h).regs.ime = s.regs.ime := rfl
@[simp] theorem State.setZNH_reg (s : State) (z n h : Bool) (r : Reg8) : (s.setZNH z n h).reg r = s.reg r := by cases r <;> rfl

@[simp] theorem State.setZNHC_mbc (s : State) (z n h c : Bool) : (s.setZNHC z n h c).mbc = s.mbc := rfl
@[simp] theorem State.setZNHC_rtc (s : State) (z n h c : Bool) : (s.setZNHC z n h c).rtc = s.rtc := rfl
@[simp] theorem State.setZNHC_ram (s : State) (z n h c : Bool) : (s.setZNHC z n h c).ram = s.ram := rfl
@[simp] theorem State.setZNHC_cart (s : State) (z n h c : Bool) : (s.setZNHC z n h c).cart = s.cart := rfl
@[simp] theorem State.setZNHC_clock (s : State) (z n h c : Bool) : (s.setZNHC z n h c).clock = s.clock := rfl
@[simp] theorem State.setZNHC_regs_sp (s : State) (z n h c : Bool) : (s.setZNHC z n h c).regs.sp = s.regs.sp := rfl
@[simp] theorem State.setZNHC_regs_pc (s : State) (z n h c : Bool) : (s.setZNHC z n h c).regs.pc = s.regs.pc := rfl
@[simp] theorem State.setZNHC_regs_ime (s : State) (z n h c : Bool) : (s.setZNHC z n h c).regs.ime = s.regs.ime := rfl
@[simp] theorem State.setZNHC_reg (s : State) (z n h c : Bool) (r : Reg8) : (s.setZNHC z n h c).reg r = s.reg r := by cases r <;> rfl

@[simp] theorem State.setIncFlags_mbc (s : State) (a : Byte) : (s.setIncFlags a).mbc = s.mbc := rfl
@[simp] theorem State.setIncFlags_rtc (s : State) (a : Byte) : (s.setIncFlags a).rtc = s.rtc := rfl
@[simp] theorem State.setIncFlags_ram (s : State) (a : Byte) : (s.setIncFlags a).ram = s.ram := rfl
@[simp] theorem State.setIncFlags_cart (s : State) (a : Byte) : (s.setIncFlags a).cart = s.cart := rfl
@[simp] theorem State.setIncFlags_clock (s : State) (a : Byte) : (s.setIncFlags a).clock = s.clock := rfl
@[simp] theorem State.setIncFlags_regs_sp (s : State) (a : Byte) : (s.setIncFlags a).regs.sp = s.regs.sp := rfl
@[simp] theorem State.setIncFlags_regs_pc (s : State) (a : Byte) : (s.setIncFlags a).regs.pc = s.regs.pc := rfl
@[simp] theorem State.setIncFlags_regs_ime (s : State) (a : Byte) : (s.setIncFlags a).regs.ime = s.regs.ime := rfl
@[simp] theorem State.setIncFlags_reg (s : State) (a : Byte) (r : Reg8) : (s.setIncFlags a).reg r = s.reg r := by cases r <;> rfl

@[simp] theorem State.setDecFlags_mbc (s : State) (a : Byte) : (s.setDecFlags a).mbc = s.mbc := rfl
@[simp] theorem State.setDecFlags_rtc (s : State) (a : Byte) : (s.setDecFlags a).rtc = s.rtc := rfl
@[simp] theorem State.setDecFlags_ram (s : State) (a : Byte) : (s.setDecFlags a).ram = s.ram := rfl
@[simp] theorem State.setDecFlags_cart (s : State) (a : Byte) : (s.setDecFlags a).cart = s.cart := rfl
@[simp] theorem State.setDecFlags_clock (s : State) (a : Byte) : (s.setDecFlags a).clock = s.clock := rfl
@[simp] theorem State.setDecFlags_regs_sp (s : State) (a : Byte) : (s.setDecFlags a).regs.sp = s.regs.sp := rfl
@[simp] theorem State.setDecFlags_regs_pc (s : State) (a : Byte) : (s.setDecFlags a).regs.pc = s.regs.pc := rfl
@[simp] theorem State.setDecFlags_regs_ime (s : State) (a : Byte) : (s.setDecFlags a).regs.ime = s.regs.ime := rfl
@[simp] theorem State.setDecFlags_reg (s : State) (a : Byte) (r : Reg8) : (s.setDecFlags a).reg r = s.reg r := by cases r <;> rfl

@[simp] theorem State.setAddFlags_mbc (s : State) (a b : Byte) : (s.setAddFlags a b).mbc = s.mbc := rfl
@[simp] theorem State.setAddFlags_rtc (s : State) (a b : Byte) : (s.setAddFlags a b).rtc = s.rtc := rfl
@[simp] theorem State.setAddFlags_ram (s : State) (a b : Byte) : (s.setAddFlags a b).ram = s.ram := rfl
@[simp] theorem State.setAddFlags_cart (s : State) (a b : Byte) : (s.setAddFlags a b).cart = s.cart := rfl
@[simp] theorem State.setAddFlags_clock (s : State) (a b : Byte) : (s.setAddFlags a b).clock = s.clock := rfl
@[simp] theorem State.setAddFlags_regs_sp (s : State) (a b : Byte) : (s.setAddFlags a b).regs.sp = s.regs.sp := rfl
@[simp] theorem State.setAddFlags_regs_pc (s : State) (a b : Byte) : (s.setAddFlags a b).regs.pc = s.regs.pc := rfl
@[simp] theorem State.setAddFlags_regs_ime (s : State) (a b : Byte) : (s.setAddFlags a b).regs.ime = s.regs.ime := rfl
@[simp] theorem State.setAddFlags_reg (s : State) (a b : Byte) (r : Reg8) : (s.setAddFlags a b).reg r = s.reg r := by cases r <;> rfl

@[simp] theorem State.setSubFlags_mbc (s : State) (a b : Byte) : (s.setSubFlags a b).mbc = s.mbc := rfl
@[simp] theorem State.setSubFlags_rtc (s : State) (a b : Byte) : (s.setSubFlags a b).rtc = s.rtc := rfl
@[simp] theorem State.setSubFlags_ram (s : State) (a b : Byte) : (s.setSubFlags a b).ram = s.ram := rfl
@[simp] theorem State.setSubFlags_cart (s : State) (a b : Byte) : (s.setSubFlags a b).cart = s.cart := rfl
@[simp] theorem State.setSubFlags_clock (s : State) (a b : Byte) : (s.setSubFlags a b).clock = s.clock := rfl
@[simp] theorem State.setSubFlags_regs_sp (s : State) (a b : Byte) : (s.setSubFlags a b).regs.sp = s.regs.sp := rfl
@[simp] theorem State.setSubFlags_regs_pc (s : State) (a b : Byte) : (s.setSubFlags a b).regs.pc = s.regs.pc := rfl
@[simp] theorem State.setSubFlags_regs_ime (s : State) (a b : Byte) : (s.setSubFlags a b).regs.ime = s.regs.ime := rfl
@[simp] theorem State.setSubFlags_reg (s : State) (a b : Byte) (r : Reg8) : (s.setSubFlags a b).reg r = s.reg r := by cases r <;> rfl

@[simp] theorem State.setXorFlags_mbc (s : State) (a : Byte) : (s.setXorFlags a).mbc = s.mbc := rfl
@[simp] theorem State.setXorFlags_rtc (s : State) (a : Byte) : (s.setXorFlags a).rtc = s.rtc := rfl
@[simp] theorem State.setXorFlags_ram (s : State) (a : Byte) : (s.setXorFlags a).ram = s.ram := rfl
@[simp] theorem State.setXorFlags_cart (s : State) (a : Byte) : (s.setXorFlags a).cart = s.cart := rfl
@[simp] theorem State.setXorFlags_clock (s : State) (a : Byte) : (s.setXorFlags a).clock = s.clock := rfl
@[simp] theorem State.setXorFlags_regs_sp (s : State) (a : Byte) : (s.setXorFlags a).regs.sp = s.regs.sp := rfl
@[simp] theorem State.setXorFlags_regs_pc (s : State) (a : Byte) : (s.setXorFlags a).regs.pc = s.regs.pc := rfl
@[simp] theorem State.setXorFlags_regs_ime (s : State) (a : Byte) : (s.setXorFlags a).regs.ime = s.regs.ime := rfl
@[simp] theorem State.setXorFlags_reg (s : State) (a : Byte) (r : Reg8) : (s.setXorFlags a).reg r = s.reg r := by cases r <;> rfl

@[simp] theorem State.setRotFlags_mbc (s : State) (a : Byte) (out : Bool) : (s.setRotFlags a out).mbc = s.mbc := rfl
@[simp] theorem State.setRotFlags_rtc (s : State) (a : Byte) (out : Bool) : (s.setRotFlags a out).rtc = s.rtc := rfl
@[simp] theorem State.setRotFlags_ram (s : State) (a : Byte) (out : Bool) : (s.setRotFlags a out).ram = s.ram := rfl
@[simp] theorem State.setRotFlags_cart (s : State) (a : Byte) (out : Bool) : (s.setRotFlags a out).cart = s.cart := rfl
@[simp] theorem State.setRotFlags_clock (s : State) (a : Byte) (out : Bool) : (s.setRotFlags a out).clock = s.clock := rfl
@[simp] theorem State.setRotFlags_regs_sp (s : State) (a : Byte) (out : Bool) : (s.setRotFlags a out).regs.sp = s.regs.sp := rfl
@[simp] theorem State.setRotFlags_regs_pc (s : State) (a : Byte) (out : Bool) : (s.setRotFlags a out).regs.pc = s.regs.pc := rfl
@[simp] theorem State.setRotFlags_regs_ime (s : State) (a : Byte) (out : Bool) : (s.setRotFlags a out).regs.ime = s.regs.ime := rfl
@[simp] theorem State.setRotFlags_reg (s : State) (a : Byte) (out : Bool) (r : Reg8) : (s.setRotFlags a out).reg r = s.reg r := by cases r <;> rfl

@[simp] theorem State.setCplFlags_mbc (s : State) : (s.setCplFlags).mbc = s.mbc := rfl
@[simp] theorem State.setCplFlags_rtc (s : State) : (s.setCplFlags).rtc = s.rtc := rfl
@[simp] theorem State.setCplFlags_ram (s : State) : (s.setCplFlags).ram = s.ram := rfl
@[simp] theorem State.setCplFlags_cart (s : State) : (s.setCplFlags).cart = s.cart := rfl
@[simp] theorem State.setCplFlags_clock (s : State) : (s.setCplFlags).clock = s.clock := rfl
@[simp] theorem State.setCplFlags_regs_sp (s : State) : (s.setCplFlags).regs.sp = s.regs.sp := rfl
@[simp] theorem State.setCplFlags_regs_pc (s : State) : (s.setCplFlags).regs.pc = s.regs.pc := rfl
@[simp] theorem State.setCplFlags_regs_ime (s : State) : (s.setCplFlags).regs.ime = s.regs.ime := rfl
@[simp] theorem State.setCplFlags_reg (s : State) (r : Reg8) : (s.setCplFlags).reg r = s.reg r := by cases r <;> rfl

/-! ## Pairs -/

@[simp] theorem State.setPair_mbc (s : State) (p : Pair) (x : Word) : (s.setPair p x).mbc = s.mbc := by cases p <;> rfl
@[simp] theorem State.setPair_rtc (s : State) (p : Pair) (x : Word) : (s.setPair p x).rtc = s.rtc := by cases p <;> rfl
@[simp] theorem State.setPair_ram (s : State) (p : Pair) (x : Word) : (s.setPair p x).ram = s.ram := by cases p <;> rfl
@[simp] theorem State.setPair_cart (s : State) (p : Pair) (x : Word) : (s.setPair p x).cart = s.cart := by cases p <;> rfl
@[simp] theorem State.setPair_clock (s : State) (p : Pair) (x : Word) : (s.setPair p x).clock = s.clock := by cases p <;> rfl
@[simp] theorem State.setPair_regs_f (s : State) (p : Pair) (x : Word) : (s.setPair p x).regs.f = s.regs.f := by cases p <;> rfl
@[simp] theorem State.setPair_regs_sp (s : State) (p : Pair) (x : Word) : (s.setPair p x).regs.sp = s.regs.sp := by cases p <;> rfl
@[simp] theorem State.setPair_regs_pc (s : State) (p : Pair) (x : Word) : (s.setPair p x).regs.pc = s.regs.pc := by cases p <;> rfl
@[simp] theorem State.setPair_regs_ime (s : State) (p : Pair) (x : Word) : (s.setPair p x).regs.ime = s.regs.ime := by cases p <;> rfl

theorem State.setPair_reg (s : State) (p : Pair) (x : Word) (r : Reg8) :
    (s.setPair p x).reg r = if r = Pair.loReg p then loByte x else if r = Pair.hiReg p then hiByte x else s.reg r := by
  cases p <;> cases r <;> rfl

@[simp] theorem State.setAF_mbc (s : State) (x : Word) : (s.setAF x).mbc = s.mbc := rfl
@[simp] theorem State.setAF_rtc (s : State) (x : Word) : (s.setAF x).rtc = s.rtc := rfl
@[simp] theorem State.setAF_ram (s : State) (x : Word) : (s.setAF x).ram = s.ram := rfl
@[simp] theorem State.setAF_cart (s : State) (x : Word) : (s.setAF x).cart = s.cart := rfl
@[simp] theorem State.setAF_clock (s : State) (x : Word) : (s.setAF x).clock = s.clock := rfl
@[simp] theorem State.setAF_regs_sp (s : State) (x : Word) : (s.setAF x).regs.sp = s.regs.sp := rfl
@[simp] theorem State.setAF_regs_pc (s : State) (x : Word) : (s.setAF x).regs.pc = s.regs.pc := rfl
@[simp] theorem State.setAF_regs_ime (s : State) (x : Word) : (s.setAF x).regs.ime = s.regs.ime := rfl
@[simp] theorem State.setAF_regs_f (s : State) (x : Word) : (s.setAF x).regs.f = loByte x &&& 0xF0 := rfl

theorem State.setAF_reg (s : State) (x : Word) (r : Reg8) : (s.setAF x).reg r = if r = .A then hiByte x else s.reg r := by
  cases r <;> rfl

/-! ## The clock sample of a step -/

@[simp] theorem State.takeSample_regs (s : State) : s.takeSample.regs = s.regs := by
  unfold State.takeSample; split <;> rfl
@[simp] theorem State.takeSample_mbc (s : State) : s.takeSample.mbc = s.mbc := by
  unfold State.takeSample; split <;> rfl
@[simp] theorem State.takeSample_rtc (s : State) : s.takeSample.rtc = s.rtc := by
  unfold State.takeSample; split <;> rfl
@[simp] theorem State.takeSample_ram (s : State) : s.takeSample.ram = s.ram := by
  unfold State.takeSample; split <;> rfl
@[simp] theorem State.takeSample_cart (s : State) : s.takeSample.cart = s.cart := by
  unfold State.takeSample; split <;> rfl

/-! ## What the frames of the statements say -/

theorem SameStorage.refl (s : State) : SameStorage s s := ⟨rfl, rfl, rfl, rfl⟩

theorem SameStorage.trans {s t u : State} (h : SameStorage s t) (k : SameStorage t u) : SameStorage s u :=
  ⟨k.1.trans h.1, k.2.1.trans h.2.1, k.2.2.1.trans h.2.2.1, k.2.2.2.trans h.2.2.2⟩

end Sys2Proof.Machine
end

