-- ==== Sys2Proof/Laws/Flags.lean ====
section
/-! SUPPORT. Bits, byte order and flags: what each flag update leaves, and the arithmetic behind it. -/

namespace Sys2Proof.Machine

/-! ## Bytes and words -/

@[simp] theorem hiByte_joinBytes (h l : Byte) : hiByte (joinBytes h l) = h := by
  unfold hiByte joinBytes
  ext i hi
  rw [BitVec.getElem_extractLsb', BitVec.getLsbD_append, if_neg (by omega), show 8 + i - 8 = i by omega,
    BitVec.getLsbD_eq_getElem hi]

@[simp] theorem loByte_joinBytes (h l : Byte) : loByte (joinBytes h l) = l := by
  unfold loByte joinBytes
  ext i hi
  rw [BitVec.getElem_extractLsb', BitVec.getLsbD_append, if_pos (by omega), Nat.zero_add, BitVec.getLsbD_eq_getElem hi]

@[simp] theorem joinBytes_hi_lo (w : Word) : joinBytes (hiByte w) (loByte w) = w := by
  unfold joinBytes hiByte loByte
  ext i hi
  simp only [BitVec.getElem_append, BitVec.getElem_extractLsb', Nat.zero_add]
  split
  · simp [BitVec.getLsbD_eq_getElem hi]
  · rw [show 8 + (i - 8) = i by omega, BitVec.getLsbD_eq_getElem hi]

@[simp] theorem State.setPair_pair (s : State) (p : Pair) (w : Word) : (s.setPair p w).pair p = w := by
  cases p <;> simp [State.pair, State.setPair, State.setReg, Pair.hiReg, Pair.loReg, State.reg]

/-! ## Single bits -/

theorem putBit_getLsbD (k : Nat) (v : Bool) (b : Byte) (i : Nat) (hi : i < 8) :
    (putBit k v b).getLsbD i = if i = k then v else b.getLsbD i := by
  unfold putBit
  cases v
  · by_cases h : i = k
    · subst h; simp [hi]
    · by_cases hik : i < k
      · simp [h, hi, hik]
      · have : i - k ≠ 0 := by omega
        simp [h, hi, this]
  · by_cases h : i = k
    · subst h; simp [hi]
    · by_cases hik : i < k
      · simp [h, hi, hik]
      · have : i - k ≠ 0 := by omega
        simp [h, hi, this]

theorem byte_ext {a b : Byte} (h : ∀ i, i < 8 → a.getLsbD i = b.getLsbD i) : a = b :=
  BitVec.eq_of_getLsbD_eq h

theorem lowNibble_mask_iff (a b : Byte) :
    a &&& 0x0F = b &&& 0x0F ↔ ∀ i, i < 4 → a.getLsbD i = b.getLsbD i := by
  constructor
  · intro h i hi
    have hb := congrArg (fun x : Byte => x.getLsbD i) h
    have : i = 0 ∨ i = 1 ∨ i = 2 ∨ i = 3 := by omega
    rcases this with rfl | rfl | rfl | rfl <;> simpa using hb
  · intro h
    refine byte_ext fun i hi => ?_
    by_cases h4 : i < 4
    · simp [h i h4]
    · have : i = 4 ∨ i = 5 ∨ i = 6 ∨ i = 7 := by omega
      rcases this with rfl | rfl | rfl | rfl <;> simp

theorem putBit_lowNibble (k : Nat) (v : Bool) (b : Byte) (hk : 4 ≤ k) : putBit k v b &&& 0x0F = b &&& 0x0F := by
  rw [lowNibble_mask_iff]
  intro i hi
  rw [putBit_getLsbD k v b i (by omega), if_neg (by omega)]

/-! ## The four flags after an update -/

@[simp] theorem State.setZNHC_flagZ (s : State) (z n h c : Bool) : (s.setZNHC z n h c).flagZ = z := by
  simp (disch := decide) only [State.flagZ, State.setZNHC, putZNHC, putZNH, putBit_getLsbD]; rfl

@[simp] theorem State.setZNHC_flagN (s : State) (z n h c : Bool) : (s.setZNHC z n h c).flagN = n := by
  simp (disch := decide) only [State.flagN, State.setZNHC, putZNHC, putZNH, putBit_getLsbD]; rfl

@[simp] theorem State.setZNHC_flagH (s : State) (z n h c : Bool) : (s.setZNHC z n h c).flagH = h := by
  simp (disch := decide) only [State.flagH, State.setZNHC, putZNHC, putZNH, putBit_getLsbD]; rfl

@[simp] theorem State.setZNHC_flagC (s : State) (z n h c : Bool) : (s.setZNHC z n h c).flagC = c := by
  simp (disch := decide) only [State.flagC, State.setZNHC, putZNHC, putBit_getLsbD]; rfl

@[simp] theorem State.setZNHC_lowNibble (s : State) (z n h c : Bool) :
    (s.setZNHC z n h c).regs.f &&& 0x0F = s.regs.f &&& 0x0F := by
  simp only [State.setZNHC, putZNHC, putZNH]
  rw [putBit_lowNibble, putBit_lowNibble, putBit_lowNibble, putBit_lowNibble] <;> decide

@[simp] theorem State.setZNH_flagZ (s : State) (z n h : Bool) : (s.setZNH z n h).flagZ = z := by
  simp (disch := decide) only [State.flagZ, State.setZNH, putZNH, putBit_getLsbD]; rfl

@[simp] theorem State.setZNH_flagN (s : State) (z n h : Bool) : (s.setZNH z n h).flagN = n := by
  simp (disch := decide) only [State.flagN, State.setZNH, putZNH, putBit_getLsbD]; rfl

@[simp] theorem State.setZNH_flagH (s : State) (z n h : Bool) : (s.setZNH z n h).flagH = h := by
  simp (disch := decide) only [State.flagH, State.setZNH, putZNH, putBit_getLsbD]; rfl

@[simp] theorem State.setZNH_flagC (s : State) (z n h : Bool) : (s.setZNH z n h).flagC = s.flagC := by
  simp (disch := decide) only [State.flagC, State.setZNH, putZNH, putBit_getLsbD]; rfl

@[simp] theorem State.setZNH_lowNibble (s : State) (z n h : Bool) :
    (s.setZNH z n h).regs.f &&& 0x0F = s.regs.f &&& 0x0F := by
  simp only [State.setZNH, putZNH]
  rw [putBit_lowNibble, putBit_lowNibble, putBit_lowNibble] <;> decide

@[simp] theorem State.setCplFlags_flagZ (s : State) : s.setCplFlags.flagZ = s.flagZ := by
  simp (disch := decide) only [State.flagZ, State.setCplFlags, putBit_getLsbD]; rfl

@[simp] theorem State.setCplFlags_flagN (s : State) : s.setCplFlags.flagN = true := by
  simp (disch := decide) only [State.flagN, State.setCplFlags, putBit_getLsbD]; rfl

@[simp] theorem State.setCplFlags_flagH (s : State) : s.setCplFlags.flagH = true := by
  simp (disch := decide) only [State.flagH, State.setCplFlags, putBit_getLsbD]; rfl

@[simp] theorem State.setCplFlags_flagC (s : State) : s.setCplFlags.flagC = s.flagC := by
  simp (disch := decide) only [State.flagC, State.setCplFlags, putBit_getLsbD]; rfl

@[simp] theorem State.setCplFlags_lowNibble (s : State) : s.setCplFlags.regs.f &&& 0x0F = s.regs.f &&& 0x0F := by
  simp only [State.setCplFlags]
  rw [putBit_lowNibble, putBit_lowNibble] <;> decide

/-! ## Flags of a state whose `F` is the same -/

theorem State.flagZ_congr {s t : State} (h : t.regs.f = s.regs.f) : t.flagZ = s.flagZ := by simp [State.flagZ, h]
theorem State.flagN_congr {s t : State} (h : t.regs.f = s.regs.f) : t.flagN = s.flagN := by simp [State.flagN, h]
theorem State.flagH_congr {s t : State} (h : t.regs.f = s.regs.f) : t.flagH = s.flagH := by simp [State.flagH, h]
theorem State.flagC_congr {s t : State} (h : t.regs.f = s.regs.f) : t.flagC = s.flagC := by simp [State.flagC, h]

@[simp] theorem State.advance_flagZ (s : State) (n : Nat) : (s.advance n).flagZ = s.flagZ := rfl
@[simp] theorem State.advance_flagN (s : State) (n : Nat) : (s.advance n).flagN = s.flagN := rfl
@[simp] theorem State.advance_flagH (s : State) (n : Nat) : (s.advance n).flagH = s.flagH := rfl
@[simp] theorem State.advance_flagC (s : State) (n : Nat) : (s.advance n).flagC = s.flagC := rfl
@[simp] theorem State.setReg_flagC (s : State) (d : Reg8) (v : Byte) : (s.setReg d v).flagC = s.flagC := by
  cases d <;> rfl
@[simp] theorem State.setReg_flagZ (s : State) (d : Reg8) (v : Byte) : (s.setReg d v).flagZ = s.flagZ := by
  cases d <;> rfl

/-! ## The arithmetic in numbers (43_alu8.md R210) -/

theorem addByte_toNat (a b : Byte) : (addByte a b).toNat = (a.toNat + b.toNat) % 256 := by
  simp [addByte, BitVec.toNat_ofNat]

theorem subByte_toNat (a b : Byte) : (subByte a b).toNat = (a.toNat + 256 - b.toNat) % 256 := by
  have ha := a.isLt
  have hb := b.isLt
  unfold subByte
  rw [BitVec.toNat_ofInt]
  omega

theorem addByte_eq_zero_iff (a b : Byte) : addByte a b = 0 ↔ (a.toNat + b.toNat) % 256 = 0 := by
  rw [← BitVec.toNat_inj, addByte_toNat]; rfl

theorem subByte_eq_zero_iff (a b : Byte) : subByte a b = 0 ↔ a = b := by
  have ha := a.isLt
  have hb := b.isLt
  rw [← BitVec.toNat_inj, subByte_toNat, ← BitVec.toNat_inj]
  show _ = 0 ↔ _
  omega

theorem byte_eq_zero_iff (b : Byte) : b = 0 ↔ b.toNat = 0 := by
  rw [← BitVec.toNat_inj]; rfl

theorem hiByte_toNat (w : Word) : (hiByte w).toNat = w.toNat / 256 := by
  have := w.isLt
  simp only [hiByte, BitVec.extractLsb'_toNat, Nat.shiftRight_eq_div_pow]
  omega

theorem loByte_toNat (w : Word) : (loByte w).toNat = w.toNat % 256 := by
  simp only [loByte, BitVec.extractLsb'_toNat, Nat.shiftRight_eq_div_pow]
  omega

theorem joinBytes_toNat (h l : Byte) : (joinBytes h l).toNat = h.toNat * 256 + l.toNat := by
  have := l.isLt
  simp only [joinBytes, BitVec.toNat_append, Nat.shiftLeft_eq]
  rw [← Nat.shiftLeft_eq, Nat.shiftLeft_add_eq_or_of_lt (by simpa using this)]

/-! ## The flags of a result, as the statements say them -/

section
variable {s u : State} {z n h c : Bool} {Z N H C : Prop} (hz : z = true ↔ Z) (hn : n = true ↔ N) (hh : h = true ↔ H)
  (hf : u.regs.f = s.regs.f)
include hz hn hh hf

theorem flagsAre_setZNHC (hc : c = true ↔ C) : FlagsAre s (u.setZNHC z n h c) Z N H C := by
  refine ⟨?_, ?_, ?_, ?_, ?_⟩
  · rwa [State.setZNHC_flagZ]
  · rwa [State.setZNHC_flagN]
  · rwa [State.setZNHC_flagH]
  · rwa [State.setZNHC_flagC]
  · rw [State.setZNHC_lowNibble, hf]

theorem flagsAre_setZNH : FlagsAre s (u.setZNH z n h) Z N H (s.flagC = true) := by
  refine ⟨?_, ?_, ?_, ?_, ?_⟩
  · rwa [State.setZNH_flagZ]
  · rwa [State.setZNH_flagN]
  · rwa [State.setZNH_flagH]
  · rw [State.setZNH_flagC, State.flagC_congr hf]
  · rw [State.setZNH_lowNibble, hf]

end

theorem flagsAre_advance {s t : State} {Z N H C : Prop} (k : Nat) (h : FlagsAre s t Z N H C) :
    FlagsAre s (t.advance k) Z N H C := h

end Sys2Proof.Machine
end

