-- ==== Sys2Proof/Laws/Rtc.lean ====
section
/-! SUPPORT. The real-time clock: what a refresh does, said once in whole seconds (spec/60_exceptions.md R303). -/

namespace Sys2Proof.Machine

/-- The time the registers show, in seconds: days, hours, minutes, seconds. -/
def Rtc.total (r : Rtc) : Nat := r.s.toNat + 60 * r.m.toNat + 3600 * r.h.toNat + 86400 * r.days

theorem Rtc.days_lt (r : Rtc) : r.days < 512 := by
  have := r.dl.isLt
  unfold Rtc.days
  cases r.dh.getLsbD 0 <;> simp <;> omega

theorem Rtc.refresh_of_halted {now : Nat} {r : Rtc} (h : r.halted = true) : r.refresh now = r := by
  simp [Rtc.refresh, h]

section
variable {now : Nat} {r : Rtc} (h : r.halted = false)
include h

theorem Rtc.refresh_s : (r.refresh now).s.toNat = (r.s.toNat + (now - r.last)) % 60 := by
  simp only [Rtc.refresh, h, Bool.false_eq_true, if_false, BitVec.toNat_ofNat]
  omega

theorem Rtc.refresh_m :
    (r.refresh now).m.toNat = (r.m.toNat + (r.s.toNat + (now - r.last)) / 60) % 60 := by
  simp only [Rtc.refresh, h, Bool.false_eq_true, if_false, BitVec.toNat_ofNat]
  omega

theorem Rtc.refresh_h :
    (r.refresh now).h.toNat =
      (r.h.toNat + (r.m.toNat + (r.s.toNat + (now - r.last)) / 60) / 60) % 24 := by
  simp only [Rtc.refresh, h, Bool.false_eq_true, if_false, BitVec.toNat_ofNat]
  omega

theorem Rtc.refresh_days :
    (r.refresh now).days =
      (r.days + (r.h.toNat + (r.m.toNat + (r.s.toNat + (now - r.last)) / 60) / 60) / 24) % 512 := by
  simp only [Rtc.refresh, h, Bool.false_eq_true, if_false]
  generalize r.days + (r.h.toNat + (r.m.toNat + (r.s.toNat + (now - r.last)) / 60) / 60) / 24 = d
  simp only [Rtc.days, BitVec.toNat_ofNat, putBit_getLsbD 0 _ _ 0 (by decide), if_true]
  by_cases hd : 256 ≤ d % 512
  · simp only [hd, decide_true, Bool.toNat_true]; omega
  · simp only [hd, decide_false, Bool.toNat_false]; omega

theorem Rtc.refresh_overflow :
    (r.refresh now).dh.getLsbD 7 =
      (r.dh.getLsbD 7 ||
        decide (511 < r.days + (r.h.toNat + (r.m.toNat + (r.s.toNat + (now - r.last)) / 60) / 60) / 24)) := by
  simp only [Rtc.refresh, h, Bool.false_eq_true, if_false]
  rw [putBit_getLsbD 0 _ _ 7 (by decide), if_neg (by decide)]
  split
  · rename_i hd
    rw [putBit_getLsbD 7 _ _ 7 (by decide), if_pos rfl]
    simp [decide_eq_true hd]
  · rename_i hd
    have : ¬ (511 < r.days + (r.h.toNat + (r.m.toNat + (r.s.toNat + (now - r.last)) / 60) / 60) / 24) := by omega
    simp [this]

theorem Rtc.refresh_dh_middle (k : Nat) (hk : 1 ≤ k) (hk6 : k ≤ 6) :
    (r.refresh now).dh.getLsbD k = r.dh.getLsbD k := by
  simp only [Rtc.refresh, h, Bool.false_eq_true, if_false]
  rw [putBit_getLsbD 0 _ _ k (by omega), if_neg (by omega)]
  split
  · rw [putBit_getLsbD 7 _ _ k (by omega), if_neg (by omega)]
  · rfl

theorem Rtc.refresh_halted : (r.refresh now).halted = false := by
  have := Rtc.refresh_dh_middle (now := now) h 6 (by decide) (by decide)
  simp only [Rtc.halted] at h ⊢
  rw [this, h]

theorem Rtc.refresh_last : (r.refresh now).last = now := by
  simp [Rtc.refresh, h]

/-- A refresh adds the elapsed seconds to the time shown, modulo 512 days. -/
theorem Rtc.refresh_total : (r.refresh now).total = (r.total + (now - r.last)) % (512 * 86400) := by
  unfold Rtc.total
  rw [Rtc.refresh_s h, Rtc.refresh_m h, Rtc.refresh_h h, Rtc.refresh_days h]
  omega

/-- The overflow bit is set exactly when the time shown would pass 512 days. -/
theorem Rtc.refresh_overflow_total :
    (r.refresh now).dh.getLsbD 7 = (r.dh.getLsbD 7 || decide (512 * 86400 ≤ r.total + (now - r.last))) := by
  rw [Rtc.refresh_overflow h]
  congr 1
  rw [decide_eq_decide]
  unfold Rtc.total
  omega

end

@[simp] theorem Rtc.refresh_latched (now : Nat) (r : Rtc) : (r.refresh now).latched = r.latched := by
  unfold Rtc.refresh; split <;> rfl

theorem Rtc.ext_days {r q : Rtc} (hs : r.s.toNat = q.s.toNat) (hm : r.m.toNat = q.m.toNat)
    (hh : r.h.toNat = q.h.toNat) (hd : r.days = q.days) (hk : ∀ k, 1 ≤ k → k < 8 → r.dh.getLsbD k = q.dh.getLsbD k)
    (hl : r.latched = q.latched) (hlast : r.last = q.last) : r = q := by
  obtain ⟨s, m, h, dl, dh, latched, last⟩ := r
  obtain ⟨s', m', h', dl', dh', latched', last'⟩ := q
  simp only [Rtc.days] at *
  have hdl := dl.isLt
  have hdl' := dl'.isLt
  have h0 : dh.getLsbD 0 = dh'.getLsbD 0 := by
    revert hd
    generalize dh.getLsbD 0 = x
    generalize dh'.getLsbD 0 = y
    intro hd
    cases x <;> cases y <;> simp at hd ⊢ <;> omega
  rw [h0] at hd
  congr 1
  · exact BitVec.eq_of_toNat_eq hs
  · exact BitVec.eq_of_toNat_eq hm
  · exact BitVec.eq_of_toNat_eq hh
  · exact BitVec.eq_of_toNat_eq (by omega)
  · refine byte_ext fun i hi => ?_
    by_cases hi0 : i = 0
    · subst hi0; exact h0
    · exact hk i (by omega) hi

/-- Two clocks that show the same time in range, and agree on the rest of `rtcDH`, the latch and `rtcLast`, are equal. -/
theorem Rtc.ext_total {r q : Rtc} (ht : r.total = q.total) (hs : r.s.toNat < 60) (hm : r.m.toNat < 60)
    (hh : r.h.toNat < 24) (hs' : q.s.toNat < 60) (hm' : q.m.toNat < 60) (hh' : q.h.toNat < 24)
    (hk : ∀ k, 1 ≤ k → k < 8 → r.dh.getLsbD k = q.dh.getLsbD k) (hl : r.latched = q.latched)
    (hlast : r.last = q.last) : r = q := by
  unfold Rtc.total at ht
  exact Rtc.ext_days (by omega) (by omega) (by omega) (by omega) hk hl hlast

theorem Rtc.refresh_in_range {now : Nat} {r : Rtc} (h : r.halted = false) :
    (r.refresh now).s.toNat < 60 ∧ (r.refresh now).m.toNat < 60 ∧ (r.refresh now).h.toNat < 24 := by
  rw [Rtc.refresh_s h, Rtc.refresh_m h, Rtc.refresh_h h]
  omega

/-- Two refreshes in time order are one refresh at the later time. -/
theorem Rtc.refresh_refresh {t u : Nat} (r : Rtc) (htu : t ≤ u) (hrt : r.last ≤ t) :
    (r.refresh t).refresh u = r.refresh u := by
  by_cases hh : r.halted = true
  · rw [Rtc.refresh_of_halted hh]
  · simp only [Bool.not_eq_true] at hh
    have h1 := Rtc.refresh_halted (now := t) hh
    obtain ⟨a1, a2, a3⟩ := Rtc.refresh_in_range (now := u) h1
    obtain ⟨b1, b2, b3⟩ := Rtc.refresh_in_range (now := u) hh
    refine Rtc.ext_total ?_ a1 a2 a3 b1 b2 b3 ?_ (by simp) ?_
    · rw [Rtc.refresh_total h1, Rtc.refresh_total hh, Rtc.refresh_total hh, Rtc.refresh_last hh]
      omega
    · intro k hk hk8
      by_cases h7 : k = 7
      · subst h7
        rw [Rtc.refresh_overflow_total h1, Rtc.refresh_overflow_total hh, Rtc.refresh_overflow_total hh,
          Rtc.refresh_total hh, Rtc.refresh_last hh, Bool.or_assoc]
        congr 1
        rw [← Bool.decide_or, decide_eq_decide]
        omega
      · rw [Rtc.refresh_dh_middle h1 k hk (by omega), Rtc.refresh_dh_middle hh k hk (by omega),
          Rtc.refresh_dh_middle hh k hk (by omega)]
    · rw [Rtc.refresh_last h1, Rtc.refresh_last hh]

/-- A second refresh with the same sample changes nothing, also when the clock ran backwards. -/
theorem Rtc.refresh_idem (t : Nat) (r : Rtc) : (r.refresh t).refresh t = r.refresh t := by
  by_cases hh : r.halted = true
  · rw [Rtc.refresh_of_halted hh, Rtc.refresh_of_halted hh]
  · simp only [Bool.not_eq_true] at hh
    have h1 := Rtc.refresh_halted (now := t) hh
    obtain ⟨a1, a2, a3⟩ := Rtc.refresh_in_range (now := t) h1
    obtain ⟨b1, b2, b3⟩ := Rtc.refresh_in_range (now := t) hh
    have hd := Rtc.days_lt (r.refresh t)
    have htot : (r.refresh t).total < 512 * 86400 := by unfold Rtc.total; omega
    refine Rtc.ext_total ?_ a1 a2 a3 b1 b2 b3 ?_ (by simp) ?_
    · rw [Rtc.refresh_total h1, Rtc.refresh_last hh]
      omega
    · intro k hk hk8
      by_cases h7 : k = 7
      · subst h7
        rw [Rtc.refresh_overflow_total h1, Rtc.refresh_last hh]
        have : ¬ (512 * 86400 ≤ (r.refresh t).total + (t - t)) := by omega
        rw [decide_eq_false this, Bool.or_false]
      · rw [Rtc.refresh_dh_middle h1 k hk (by omega)]
    · rw [Rtc.refresh_last h1, Rtc.refresh_last hh]

@[simp] theorem Rtc.beforeRead_idem (t : Nat) (r : Rtc) : (r.beforeRead t).beforeRead t = r.beforeRead t := by
  unfold Rtc.beforeRead
  cases h : r.latched
  · simp [h, Rtc.refresh_idem]
  · simp [h]

@[simp] theorem Rtc.put_last (reg : RtcReg) (v : Byte) (r : Rtc) : (r.put reg v).last = r.last := by cases reg <;> rfl
@[simp] theorem Rtc.put_latched (reg : RtcReg) (v : Byte) (r : Rtc) : (r.put reg v).latched = r.latched := by
  cases reg <;> rfl
@[simp] theorem Rtc.get_put_same (reg : RtcReg) (v : Byte) (r : Rtc) : (r.put reg v).get reg = v := by cases reg <;> rfl
theorem Rtc.get_put_other {reg other : RtcReg} (v : Byte) (r : Rtc) (h : other ≠ reg) :
    (r.put reg v).get other = r.get other := by
  cases reg <;> cases other <;> first | rfl | exact absurd rfl h

end Sys2Proof.Machine
end

