-- ==== Sys2Proof/Laws/Bus.lean ====
section
/-! SUPPORT. The bus: what a read and a write can change, routing, read after write, legality. -/

namespace Sys2Proof.Machine

/-! ## Routing -/

theorem rtcWindow_congr {s t : State} (hm : t.mbc = s.mbc) (hc : t.cart = s.cart) : rtcWindow t = rtcWindow s := by
  simp [rtcWindow, hm, hc]

/-- Routing depends on the bank controller and the cartridge only. -/
theorem route_congr {s t : State} (hm : t.mbc = s.mbc) (hc : t.cart = s.cart) (a : Word) : route t a = route s a := by
  simp [route, romStore, extStore, rtcWindow, hm, hc]

/-! ## The address map, range by range (20_memory.md R52) -/

section
variable {s : State} {a : Word}

theorem route_rom0 (h : a.toNat ≤ 0x3FFF) : route s a = romStore s a.toNat := by
  simp only [route, h, if_true]

theorem route_rom1 (h1 : 0x4000 ≤ a.toNat) (h2 : a.toNat ≤ 0x7FFF) :
    route s a = romStore s ((a.toNat - 0x4000) + s.mbc.romBank.toNat * 0x4000) := by
  simp (disch := omega) only [route, if_pos, if_neg]

theorem route_vram (h1 : 0x8000 ≤ a.toNat) (h2 : a.toNat ≤ 0x9FFF) : route s a = .vram (a.toNat - 0x8000) := by
  simp (disch := omega) only [route, if_pos, if_neg]

theorem route_ext (h1 : 0xA000 ≤ a.toNat) (h2 : a.toNat ≤ 0xBFFF) : route s a = extStore s a.toNat := by
  simp (disch := omega) only [route, if_pos, if_neg]

theorem route_wram (h1 : 0xC000 ≤ a.toNat) (h2 : a.toNat ≤ 0xDFFF) : route s a = .wram (a.toNat - 0xC000) := by
  simp (disch := omega) only [route, if_pos, if_neg]

theorem route_echo (h1 : 0xE000 ≤ a.toNat) (h2 : a.toNat ≤ 0xFDFF) : route s a = .wram (a.toNat - 0xE000) := by
  simp (disch := omega) only [route, if_pos, if_neg]

theorem route_oam (h1 : 0xFE00 ≤ a.toNat) (h2 : a.toNat ≤ 0xFE9F) : route s a = .oam (a.toNat - 0xFE00) := by
  simp (disch := omega) only [route, if_pos, if_neg]

theorem route_hole (h1 : 0xFEA0 ≤ a.toNat) (h2 : a.toNat ≤ 0xFEFF) : route s a = .nowhere := by
  simp (disch := omega) only [route, if_pos, if_neg]

theorem route_io (h1 : 0xFF00 ≤ a.toNat) (h2 : a.toNat ≤ 0xFF7F) : route s a = .io (a.toNat - 0xFF00) := by
  simp (disch := omega) only [route, if_pos, if_neg]

theorem route_hram (h1 : 0xFF80 ≤ a.toNat) (h2 : a.toNat ≤ 0xFFFE) : route s a = .hram (a.toNat - 0xFF80) := by
  simp (disch := omega) only [route, if_pos, if_neg]

theorem route_ie (h : a.toNat = 0xFFFF) : route s a = .ie := by
  simp (disch := omega) only [route, if_neg]

/-- The ranges of R52 cover the address space. -/
theorem address_regions (a : Word) :
    a.toNat ≤ 0x3FFF ∨ (0x4000 ≤ a.toNat ∧ a.toNat ≤ 0x7FFF) ∨ (0x8000 ≤ a.toNat ∧ a.toNat ≤ 0x9FFF) ∨
    (0xA000 ≤ a.toNat ∧ a.toNat ≤ 0xBFFF) ∨ (0xC000 ≤ a.toNat ∧ a.toNat ≤ 0xDFFF) ∨
    (0xE000 ≤ a.toNat ∧ a.toNat ≤ 0xFDFF) ∨ (0xFE00 ≤ a.toNat ∧ a.toNat ≤ 0xFE9F) ∨
    (0xFEA0 ≤ a.toNat ∧ a.toNat ≤ 0xFEFF) ∨ (0xFF00 ≤ a.toNat ∧ a.toNat ≤ 0xFF7F) ∨
    (0xFF80 ≤ a.toNat ∧ a.toNat ≤ 0xFFFE) ∨ a.toNat = 0xFFFF := by
  have := a.isLt
  omega

end

/-- What an address can reach, and the index bounds of each store. -/
def StoreInBounds (s : State) (a : Word) : Store → Prop
  | .rom off => a.toNat ≤ 0x7FFF ∧ off < s.cart.romLen
  | .vram k => 0x8000 ≤ a.toNat ∧ k < 0x2000
  | .eram off => 0x8000 ≤ a.toNat ∧ off < s.cart.ramSize.bytes
  | .rtc reg => 0x8000 ≤ a.toNat ∧ s.mbc.ramEnabled = true ∧ rtcWindow s = some reg
  | .wram k => 0x8000 ≤ a.toNat ∧ k < 0x2000
  | .oam k => 0x8000 ≤ a.toNat ∧ k < 0xA0
  | .io k => 0x8000 ≤ a.toNat ∧ k < 0x80
  | .hram k => 0x8000 ≤ a.toNat ∧ k < 0x7F
  | .ie => 0x8000 ≤ a.toNat
  | .nowhere => True

theorem romStore_inBounds (s : State) (a : Word) (off : Nat) (h : a.toNat ≤ 0x7FFF) :
    StoreInBounds s a (romStore s off) := by
  unfold romStore
  split
  · exact ⟨h, ‹_›⟩
  · trivial

theorem extStore_inBounds (s : State) (a : Word) (h : 0x8000 ≤ a.toNat) : StoreInBounds s a (extStore s a.toNat) := by
  unfold extStore
  split
  · trivial
  · rename_i he
    split
    · exact ⟨h, by simpa using he, ‹_›⟩
    · dsimp only
      split
      · exact ⟨h, ‹_›⟩
      · trivial

theorem route_inBounds (s : State) (a : Word) : StoreInBounds s a (route s a) := by
  rcases address_regions a with rom0 | ⟨lo, rom1⟩ | ⟨lo, vram⟩ | ⟨lo, ext⟩ | ⟨lo, wram⟩ | ⟨lo, echo⟩ | ⟨lo, oam⟩ |
    ⟨lo, hole⟩ | ⟨lo, io⟩ | ⟨lo, hram⟩ | ie
  · rw [route_rom0 rom0]; exact romStore_inBounds s a _ (by omega)
  · rw [route_rom1 lo rom1]; exact romStore_inBounds s a _ rom1
  · rw [route_vram lo vram]; simp only [StoreInBounds]; omega
  · rw [route_ext lo ext]; exact extStore_inBounds s a (by omega)
  · rw [route_wram lo wram]; simp only [StoreInBounds]; omega
  · rw [route_echo lo echo]; simp only [StoreInBounds]; omega
  · rw [route_oam lo oam]; simp only [StoreInBounds]; omega
  · rw [route_hole lo hole]; trivial
  · rw [route_io lo io]; simp only [StoreInBounds]; omega
  · rw [route_hram lo hram]; simp only [StoreInBounds]; omega
  · rw [route_ie ie]; simp only [StoreInBounds]; omega

/-- Two addresses that show an RTC register show the same one. -/
theorem route_rtc_unique {s : State} {a b : Word} {r q : RtcReg} (ha : route s a = .rtc r) (hb : route s b = .rtc q) :
    r = q := by
  have h1 := route_inBounds s a
  have h2 := route_inBounds s b
  rw [ha] at h1
  rw [hb] at h2
  exact Option.some.inj (h1.2.2.symm.trans h2.2.2)

/-! ## Reading -/

@[simp] theorem touchStore_regs (s : State) (st : Store) : (s.touchStore st).regs = s.regs := by cases st <;> rfl
@[simp] theorem touchStore_mbc (s : State) (st : Store) : (s.touchStore st).mbc = s.mbc := by cases st <;> rfl
@[simp] theorem touchStore_ram (s : State) (st : Store) : (s.touchStore st).ram = s.ram := by cases st <;> rfl
@[simp] theorem touchStore_cart (s : State) (st : Store) : (s.touchStore st).cart = s.cart := by cases st <;> rfl
@[simp] theorem touchStore_clock (s : State) (st : Store) : (s.touchStore st).clock = s.clock := by cases st <;> rfl

theorem touchStore_rtc (s : State) (st : Store) :
    (s.touchStore st).rtc = s.rtc ∨ (∃ r, st = .rtc r) ∧ (s.touchStore st).rtc = s.rtc.beforeRead s.clock.now := by
  cases st <;> first | exact .inl rfl | exact .inr ⟨⟨_, rfl⟩, rfl⟩

theorem touchStore_quiet {s : State} {st : Store} (h : ∀ r, st ≠ .rtc r) : s.touchStore st = s := by
  cases st <;> first | rfl | exact absurd rfl (h _)

@[simp] theorem busRead_regs (a : Word) (s : State) : (busRead a s).2.regs = s.regs := touchStore_regs s _
@[simp] theorem busRead_mbc (a : Word) (s : State) : (busRead a s).2.mbc = s.mbc := touchStore_mbc s _
@[simp] theorem busRead_ram (a : Word) (s : State) : (busRead a s).2.ram = s.ram := touchStore_ram s _
@[simp] theorem busRead_cart (a : Word) (s : State) : (busRead a s).2.cart = s.cart := touchStore_cart s _
@[simp] theorem busRead_clock (a : Word) (s : State) : (busRead a s).2.clock = s.clock := touchStore_clock s _
@[simp] theorem busRead_reg (a : Word) (s : State) (r : Reg8) : (busRead a s).2.reg r = s.reg r := by
  cases r <;> simp [State.reg]
@[simp] theorem busRead_hl (a : Word) (s : State) : (busRead a s).2.hl = s.hl := by simp [State.hl, State.pair]
@[simp] theorem busRead_flagC (a : Word) (s : State) : (busRead a s).2.flagC = s.flagC := by simp [State.flagC]
@[simp] theorem busRead_route (a b : Word) (s : State) : route (busRead a s).2 b = route s b :=
  route_congr (busRead_mbc a s) (busRead_cart a s) b

theorem busRead_sameStorage (a : Word) (s : State) : SameStorage s (busRead a s).2 := by
  simp [SameStorage]

theorem busRead_quiet {s : State} {a : Word} (h : QuietRead s a) : busRead a s = (s.storeByte (route s a), s) := by
  unfold busRead
  rw [touchStore_quiet h]

theorem busRead_rtc {s : State} {a : Word} {r : RtcReg} (h : route s a = .rtc r) :
    busRead a s = ((s.rtc.beforeRead s.clock.now).get r, { s with rtc := s.rtc.beforeRead s.clock.now }) := by
  simp [busRead, h, State.touchStore, State.storeByte]

/-- Of the RTC a read leaves either all or its refresh. -/
theorem busRead_snd_rtc (a : Word) (s : State) :
    (busRead a s).2.rtc = s.rtc ∨
      (∃ r, route s a = .rtc r) ∧ (busRead a s).2.rtc = s.rtc.beforeRead s.clock.now :=
  touchStore_rtc s (route s a)

/-! ## What a byte read depends on -/

/-- The byte a read gives, in two states with the same storage, the same RTC up to the refresh of a read. -/
theorem busRead_fst_congr {s t : State} (h : SameStorage s t)
    (hr : t.rtc.beforeRead t.clock.now = s.rtc.beforeRead s.clock.now) (a : Word) : (busRead a t).1 = (busRead a s).1 := by
  obtain ⟨hm, hram, hc, hk⟩ := h
  have hroute := route_congr hm hc a
  unfold busRead
  rw [hroute]
  cases hs : route s a <;> simp [State.touchStore, State.storeByte, hram, hc, hr]

theorem busRead_beforeRead (a : Word) (s : State) :
    (busRead a s).2.rtc.beforeRead s.clock.now = s.rtc.beforeRead s.clock.now := by
  rcases busRead_snd_rtc a s with h | ⟨-, h⟩ <;> rw [h]
  exact Rtc.beforeRead_idem _ _

/-- A read gives the same byte again, whatever was read in between at the same clock sample. -/
theorem busRead_fst_after (a b : Word) (s : State) : (busRead a (busRead b s).2).1 = (busRead a s).1 := by
  refine busRead_fst_congr (busRead_sameStorage b s) ?_ a
  rw [busRead_clock]
  exact busRead_beforeRead b s

/-! ## Writing -/

@[simp] theorem putStore_regs (s : State) (st : Store) (v : Byte) : (s.putStore st v).regs = s.regs := by
  cases st <;> rfl
@[simp] theorem putStore_mbc (s : State) (st : Store) (v : Byte) : (s.putStore st v).mbc = s.mbc := by cases st <;> rfl
@[simp] theorem putStore_cart (s : State) (st : Store) (v : Byte) : (s.putStore st v).cart = s.cart := by
  cases st <;> rfl
@[simp] theorem putStore_clock (s : State) (st : Store) (v : Byte) : (s.putStore st v).clock = s.clock := by
  cases st <;> rfl

theorem putStore_rtc {s : State} {st : Store} {v : Byte} (h : ∀ r, st ≠ .rtc r) : (s.putStore st v).rtc = s.rtc := by
  cases st <;> first | rfl | exact absurd rfl (h _)

/-- Read after write in one store: any that keeps a byte. -/
theorem storeByte_putStore_same {s : State} {st : Store} {v : Byte} {n : Nat} (hl : s.ram.legal n = true)
    (h1 : st ≠ .nowhere) (h2 : ∀ off, st ≠ .rom off) : (s.putStore st v).storeByte st = v := by
  simp only [Ram.legal, Bool.and_eq_true] at hl
  obtain ⟨⟨⟨⟨⟨hv, hw⟩, ho⟩, hi⟩, hh⟩, he⟩ := hl
  cases st with
  | rom off => exact absurd rfl (h2 off)
  | vram k => exact Memory.read_write_same hv
  | eram k => exact Memory.read_write_same he
  | rtc reg => exact Rtc.get_put_same reg v s.rtc
  | wram k => exact Memory.read_write_same hw
  | oam k => exact Memory.read_write_same ho
  | io k => exact Memory.read_write_same hi
  | hram k => exact Memory.read_write_same hh
  | ie => rfl
  | nowhere => exact absurd rfl h1

theorem Store.ne_of_arg {α : Type} {f : α → Store} {a b : α} (h : f a ≠ f b) : a ≠ b := fun e => h (e ▸ rfl)

/-- Read after write, another store. -/
theorem storeByte_putStore_other {s : State} {st st' : Store} {v : Byte} (h : st' ≠ st) :
    (s.putStore st v).storeByte st' = s.storeByte st' := by
  cases st <;> cases st' <;>
    first
    | rfl
    | exact absurd rfl h
    | exact Memory.read_write_other _ (Store.ne_of_arg h)
    | exact Rtc.get_put_other _ _ (Store.ne_of_arg h)

@[simp] theorem latchWrite_regs (v : Byte) (s : State) : (latchWrite v s).regs = s.regs := by
  unfold latchWrite; split <;> rfl
@[simp] theorem latchWrite_mbc (v : Byte) (s : State) : (latchWrite v s).mbc = s.mbc := by
  unfold latchWrite; split <;> rfl
@[simp] theorem latchWrite_ram (v : Byte) (s : State) : (latchWrite v s).ram = s.ram := by
  unfold latchWrite; split <;> rfl
@[simp] theorem latchWrite_cart (v : Byte) (s : State) : (latchWrite v s).cart = s.cart := by
  unfold latchWrite; split <;> rfl
@[simp] theorem latchWrite_clock (v : Byte) (s : State) : (latchWrite v s).clock = s.clock := by
  unfold latchWrite; split <;> rfl

/-- What a control write can be: nothing, or one of the four writes of its range. -/
theorem controlWrite_cases (a : Word) (v : Byte) (s : State) :
    (s.cart.mbcType = .romOnly ∧ controlWrite a v s = s) ∨
    (s.cart.mbcType ≠ .romOnly ∧
      ((a.toNat ≤ 0x1FFF ∧ controlWrite a v s = ramEnableWrite v s) ∨
       (0x1FFF < a.toNat ∧ a.toNat ≤ 0x3FFF ∧ controlWrite a v s = romBankWrite v s) ∨
       (0x3FFF < a.toNat ∧ a.toNat ≤ 0x5FFF ∧ controlWrite a v s = ramBankWrite v s) ∨
       (0x5FFF < a.toNat ∧ controlWrite a v s = latchWrite v s))) := by
  unfold controlWrite
  cases hm : s.cart.mbcType
  · exact .inl ⟨rfl, rfl⟩
  all_goals
    refine .inr ⟨by simp, ?_⟩
    dsimp only
    split
    · exact .inl ⟨‹_›, rfl⟩
    split
    · exact .inr (.inl ⟨by omega, ‹_›, rfl⟩)
    split
    · exact .inr (.inr (.inl ⟨by omega, ‹_›, rfl⟩))
    · exact .inr (.inr (.inr ⟨by omega, rfl⟩))

@[simp] theorem controlWrite_regs (a : Word) (v : Byte) (s : State) : (controlWrite a v s).regs = s.regs := by
  rcases controlWrite_cases a v s with ⟨-, h⟩ | ⟨-, ⟨-, h⟩ | ⟨-, -, h⟩ | ⟨-, -, h⟩ | ⟨-, h⟩⟩ <;> rw [h] <;>
    simp [ramEnableWrite, romBankWrite, ramBankWrite]
@[simp] theorem controlWrite_ram (a : Word) (v : Byte) (s : State) : (controlWrite a v s).ram = s.ram := by
  rcases controlWrite_cases a v s with ⟨-, h⟩ | ⟨-, ⟨-, h⟩ | ⟨-, -, h⟩ | ⟨-, -, h⟩ | ⟨-, h⟩⟩ <;> rw [h] <;>
    simp [ramEnableWrite, romBankWrite, ramBankWrite]
@[simp] theorem controlWrite_cart (a : Word) (v : Byte) (s : State) : (controlWrite a v s).cart = s.cart := by
  rcases controlWrite_cases a v s with ⟨-, h⟩ | ⟨-, ⟨-, h⟩ | ⟨-, -, h⟩ | ⟨-, -, h⟩ | ⟨-, h⟩⟩ <;> rw [h] <;>
    simp [ramEnableWrite, romBankWrite, ramBankWrite]
@[simp] theorem controlWrite_clock (a : Word) (v : Byte) (s : State) : (controlWrite a v s).clock = s.clock := by
  rcases controlWrite_cases a v s with ⟨-, h⟩ | ⟨-, ⟨-, h⟩ | ⟨-, -, h⟩ | ⟨-, -, h⟩ | ⟨-, h⟩⟩ <;> rw [h] <;>
    simp [ramEnableWrite, romBankWrite, ramBankWrite]

theorem busWrite_low {a : Word} {s : State} {v : Byte} (h : a.toNat ≤ 0x7FFF) : busWrite a v s = controlWrite a v s := by
  rw [busWrite, if_pos h]

theorem busWrite_high {a : Word} {s : State} {v : Byte} (h : 0x8000 ≤ a.toNat) :
    busWrite a v s = s.putStore (route s a) v := by
  rw [busWrite, if_neg (by omega)]

@[simp] theorem busWrite_regs (a : Word) (v : Byte) (s : State) : (busWrite a v s).regs = s.regs := by
  unfold busWrite; split <;> simp
@[simp] theorem busWrite_cart (a : Word) (v : Byte) (s : State) : (busWrite a v s).cart = s.cart := by
  unfold busWrite; split <;> simp
@[simp] theorem busWrite_clock (a : Word) (v : Byte) (s : State) : (busWrite a v s).clock = s.clock := by
  unfold busWrite; split <;> simp
@[simp] theorem busWrite_reg (a : Word) (v : Byte) (s : State) (r : Reg8) : (busWrite a v s).reg r = s.reg r := by
  cases r <;> simp [State.reg]
@[simp] theorem busWrite_hl (a : Word) (v : Byte) (s : State) : (busWrite a v s).hl = s.hl := by
  simp [State.hl, State.pair]
@[simp] theorem busWrite_flagC (a : Word) (v : Byte) (s : State) : (busWrite a v s).flagC = s.flagC := by
  simp [State.flagC]

/-- A write outside the control ranges leaves the bank controller, so every address reaches what it reached. -/
theorem busWrite_mbc {a : Word} {s : State} {v : Byte} (h : 0x8000 ≤ a.toNat) : (busWrite a v s).mbc = s.mbc := by
  rw [busWrite_high h, putStore_mbc]

theorem busWrite_route {a : Word} {s : State} {v : Byte} (h : 0x8000 ≤ a.toNat) (b : Word) :
    route (busWrite a v s) b = route s b :=
  route_congr (busWrite_mbc h) (busWrite_cart a v s) b

/-! ## The registers of the CPU play no part on the bus -/

theorem busRead_withRegs (a : Word) (s : State) (x : Regs) :
    busRead a { s with regs := x } = ((busRead a s).1, { (busRead a s).2 with regs := x }) := by
  unfold busRead
  rw [show route { s with regs := x } a = route s a from route_congr rfl rfl a]
  cases route s a <;> rfl

theorem controlWrite_withRegs (a : Word) (v : Byte) (s : State) (x : Regs) :
    controlWrite a v { s with regs := x } = { controlWrite a v s with regs := x } := by
  obtain ⟨regs, mbc, rtc, ram, ⟨rom, romLen, ty, sz⟩, clock⟩ := s
  cases ty <;> simp only [controlWrite] <;> (try split_ifs) <;> rfl

theorem busWrite_withRegs (a : Word) (v : Byte) (s : State) (x : Regs) :
    busWrite a v { s with regs := x } = { busWrite a v s with regs := x } := by
  by_cases ha : a.toNat ≤ 0x7FFF
  · rw [busWrite_low ha, busWrite_low ha, controlWrite_withRegs]
  · rw [busWrite_high (by omega), busWrite_high (by omega),
      show route { s with regs := x } a = route s a from route_congr rfl rfl a]
    cases route s a <;> rfl

/-- The byte at every address whose store is not the one written reads as before. -/
theorem busRead_busWrite_other {a b : Word} {s : State} {v : Byte} (h : 0x8000 ≤ a.toNat)
    (hne : route s b ≠ route s a) : (busRead b (busWrite a v s)).1 = (busRead b s).1 := by
  unfold busRead
  rw [busWrite_route h, busWrite_high h]
  by_cases hq : ∃ r, route s b = .rtc r
  · obtain ⟨r, hr⟩ := hq
    have hn : ∀ q, route s a ≠ .rtc q := fun q hqa => hne (by rw [hr, hqa, route_rtc_unique hr hqa])
    simp only [hr, State.touchStore, State.storeByte, putStore_rtc hn, putStore_clock]
  · have hq' : ∀ r, route s b ≠ .rtc r := fun r hr => hq ⟨r, hr⟩
    rw [touchStore_quiet hq', touchStore_quiet hq']
    exact storeByte_putStore_other hne

/-- Read after write in plain storage. -/
theorem busRead_busWrite_same {a : Word} {s : State} {v : Byte} {n : Nat} (hl : s.ram.legal n = true)
    (h : PlainStorage s a) : (busRead a (busWrite a v s)).1 = v := by
  obtain ⟨h8, hn, hr⟩ := h
  have hrom : ∀ off, route s a ≠ .rom off := by
    intro off ho
    have := route_inBounds s a
    rw [ho] at this
    have := this.1
    omega
  have hq : QuietRead (busWrite a v s) a := by
    intro reg; rw [busWrite_route h8]; exact hr reg
  rw [busRead_quiet hq, busWrite_route h8, busWrite_high h8]
  exact storeByte_putStore_same hl hn hrom

/-! ## Legal states -/

theorem ram_legal_putStore {s : State} {a : Word} (v : Byte) (h : s.ram.legal s.cart.ramSize.bytes = true) :
    (s.putStore (route s a) v).ram.legal s.cart.ramSize.bytes = true := by
  have hb := route_inBounds s a
  simp only [Ram.legal, Bool.and_eq_true] at h ⊢
  obtain ⟨⟨⟨⟨⟨hv, hw⟩, ho⟩, hi⟩, hh⟩, he⟩ := h
  cases hs : route s a <;> rw [hs] at hb <;> simp only [State.putStore] <;>
    refine ⟨⟨⟨⟨⟨?_, ?_⟩, ?_⟩, ?_⟩, ?_⟩, ?_⟩ <;>
    first | assumption | exact Memory.wf_write (by assumption) hb.2

theorem lowNibble_mask3 (v : Byte) : (v &&& 0x03).toNat ≤ 3 := by
  rw [BitVec.toNat_and]; exact Nat.and_le_right

theorem romBankOf_legal (t : MbcType) (v : Byte) : match t with
    | .romOnly => romBankOf t v = 1
    | .mbc5bit => 1 ≤ (romBankOf t v).toNat ∧ (romBankOf t v).toNat ≤ 31
    | .mbc7bitRtc => (romBankOf t v).toNat ≤ 127
    | .mbc8bit => romBankOf t v = v := by
  cases t
  · rfl
  · simp only [romBankOf]
    split
    · decide
    · rename_i h
      have h1 : (v &&& 0x1F).toNat ≠ 0 := fun h0 => h (BitVec.eq_of_toNat_eq (by simpa using h0))
      have h2 : (v &&& 0x1F).toNat ≤ 31 := by rw [BitVec.toNat_and]; exact Nat.and_le_right
      omega
  · show (v &&& 0x7F).toNat ≤ 127
    rw [BitVec.toNat_and]; exact Nat.and_le_right
  · rfl

/-- The legal controller states, as propositions. -/
theorem Mbc.legal_iff (t : MbcType) (m : Mbc) : m.legal t = true ↔ m.mode = false ∧
    match t with
    | .romOnly => m.ramEnabled = false ∧ m.romBank = 1 ∧ m.ramBank = 0
    | .mbc5bit => (1 ≤ m.romBank.toNat ∧ m.romBank.toNat ≤ 31) ∧ m.ramBank.toNat ≤ 3
    | .mbc7bitRtc =>
      m.romBank.toNat ≤ 127 ∧ (m.ramBank.toNat ≤ 3 ∨ 0x08 ≤ m.ramBank.toNat ∧ m.ramBank.toNat ≤ 0x0C)
    | .mbc8bit => m.ramBank.toNat ≤ 3 := by
  cases t <;>
    simp only [Mbc.legal, Bool.and_eq_true, Bool.or_eq_true, Bool.not_eq_true', decide_eq_true_eq, and_assoc]

theorem mbc_legal_controlWrite {s : State} (a : Word) (v : Byte) (h : s.mbc.legal s.cart.mbcType = true) :
    (controlWrite a v s).mbc.legal s.cart.mbcType = true := by
  rw [Mbc.legal_iff] at h ⊢
  have hr := romBankOf_legal s.cart.mbcType v
  have h3 := lowNibble_mask3 v
  rcases controlWrite_cases a v s with ⟨-, h'⟩ | ⟨hne, ⟨-, h'⟩ | ⟨-, -, h'⟩ | ⟨-, -, h'⟩ | ⟨-, h'⟩⟩ <;> rw [h']
  · exact h
  · revert h hne
    simp only [ramEnableWrite]
    cases s.cart.mbcType
    · exact fun _ hne => absurd rfl hne
    all_goals exact fun h _ => h
  · revert h hne hr
    simp only [romBankWrite]
    cases s.cart.mbcType
    · exact fun _ _ hne => absurd rfl hne
    · exact fun h hr _ => ⟨h.1, hr, h.2.2⟩
    · exact fun h hr _ => ⟨h.1, hr, h.2.2⟩
    · exact fun h _ _ => h
  · revert h hne
    simp only [ramBankWrite]
    cases s.cart.mbcType
    · exact fun _ hne => absurd rfl hne
    · exact fun h _ => ⟨h.1, h.2.1, h3⟩
    · intro h _
      refine ⟨h.1, h.2.1, ?_⟩
      simp only [ramBankOf]
      split
      · exact .inr ‹_›
      · exact .inl h3
    · exact fun h _ => ⟨h.1, h3⟩
  · rw [latchWrite_mbc]; exact h

/-- A bus write keeps a state legal. -/
theorem State.Legal.busWrite {s : State} (h : s.Legal) (a : Word) (v : Byte) : (busWrite a v s).Legal := by
  refine ⟨by rw [busWrite_regs]; exact h.flags, ?_, ?_, by rw [busWrite_cart]; exact h.cart⟩
  · rw [busWrite_cart]
    by_cases ha : a.toNat ≤ 0x7FFF
    · rw [busWrite_low ha]; exact mbc_legal_controlWrite a v h.mbc
    · rw [busWrite_mbc (by omega)]; exact h.mbc
  · rw [busWrite_cart]
    by_cases ha : a.toNat ≤ 0x7FFF
    · rw [busWrite_low ha, controlWrite_ram]; exact h.ram
    · rw [busWrite_high (by omega)]; exact ram_legal_putStore v h.ram

/-- A bus read keeps a state legal. -/
theorem State.Legal.busRead {s : State} (h : s.Legal) (a : Word) : (busRead a s).2.Legal :=
  ⟨by rw [busRead_regs]; exact h.flags, by rw [busRead_mbc, busRead_cart]; exact h.mbc,
    by rw [busRead_ram, busRead_cart]; exact h.ram, by rw [busRead_cart]; exact h.cart⟩

/-- Legality asks nothing of the registers but the low nibble of `F`, and nothing of the RTC and the clock. -/
theorem State.Legal.of_same {s t : State} (h : s.Legal) (hf : t.regs.f &&& 0x0F = 0) (hm : t.mbc = s.mbc)
    (hr : t.ram = s.ram) (hc : t.cart = s.cart) : t.Legal :=
  ⟨hf, by rw [hm, hc]; exact h.mbc, by rw [hr, hc]; exact h.ram, by rw [hc]; exact h.cart⟩

end Sys2Proof.Machine
end

