-- ==== Sys2Proof/Laws/Decode.lean ====
section
/-! SUPPORT. The two opcode tables as the decoder has them, entry by entry, against the encoder's rows. -/

namespace Sys2Proof.Machine

/-! ## What the decoder gives for each format -/

section
variable {op b c : Byte} {rest : List Byte}

theorem decode_of_op {i : Instr} (h : primary op = some (.op i)) : decode (op :: rest) = .ok (i, rest) := by
  simp [decode, h]

theorem decode_of_imm8 {f : Byte → Instr} (h : primary op = some (.imm8 f)) :
    decode (op :: b :: rest) = .ok (f b, rest) := by
  simp [decode, h]

theorem decode_of_imm16 {f : Word → Instr} (h : primary op = some (.imm16 f)) :
    decode (op :: b :: c :: rest) = .ok (f (joinBytes c b), rest) := by
  simp [decode, h]

theorem decode_of_prefixed (h : primary op = some .prefixed) :
    decode (op :: b :: rest) = .ok (decodePrefixed b, rest) := by
  simp [decode, h]

theorem decode_of_none (h : primary op = none) : decode (op :: rest) = .error (.unmappedPrimary op) := by
  simp [decode, h]

end

/-! ## The primary table -/

/-- An entry of the primary table is what the encoder writes for its instruction; an empty entry is on the list of
30_encoding.md R150. -/
def PrimaryEntry (op : Byte) (entry : Option Format) : Prop :=
  match entry with
  | none => op.toNat ∈ unmappedPrimary
  | some (.op i) => op.toNat ∉ unmappedPrimary ∧ encode i = [op] ∧ i.wf = true
  | some (.imm8 f) => op.toNat ∉ unmappedPrimary ∧ ∀ b, encode (f b) = [op, b] ∧ (f b).wf = true
  | some (.imm16 f) => op.toNat ∉ unmappedPrimary ∧ ∀ w, encode (f w) = encode16 op w ∧ (f w).wf = true
  | some .prefixed => op.toNat ∉ unmappedPrimary ∧ op = 0xCB

section
variable {op : Byte}

theorem primaryEntry_none (h : primary op = none) (h2 : op.toNat ∈ unmappedPrimary) : PrimaryEntry op (primary op) := by
  rw [h]; exact h2

theorem primaryEntry_op {i : Instr} (h : primary op = some (.op i)) (h2 : op.toNat ∉ unmappedPrimary)
    (h3 : encode i = [op]) (h4 : i.wf = true) : PrimaryEntry op (primary op) := by
  rw [h]; exact ⟨h2, h3, h4⟩

theorem primaryEntry_imm8 {f : Byte → Instr} (h : primary op = some (.imm8 f)) (h2 : op.toNat ∉ unmappedPrimary)
    (h3 : ∀ b, encode (f b) = [op, b] ∧ (f b).wf = true) : PrimaryEntry op (primary op) := by
  rw [h]; exact ⟨h2, h3⟩

theorem primaryEntry_imm16 {f : Word → Instr} (h : primary op = some (.imm16 f)) (h2 : op.toNat ∉ unmappedPrimary)
    (h3 : ∀ w, encode (f w) = encode16 op w ∧ (f w).wf = true) : PrimaryEntry op (primary op) := by
  rw [h]; exact ⟨h2, h3⟩

end

/-- The 256 entries. -/
theorem primaryEntry_of_lt : ∀ n < 256, PrimaryEntry (BitVec.ofNat 8 n) (primary (BitVec.ofNat 8 n)) := by
  intro n hn
  interval_cases n <;> first
    | exact primaryEntry_op rfl (by decide) rfl rfl
    | exact primaryEntry_none rfl (by decide)
    | exact primaryEntry_imm8 rfl (by decide) fun b => ⟨rfl, rfl⟩
    | exact primaryEntry_imm16 rfl (by decide) fun w => ⟨rfl, rfl⟩
    | exact ⟨by decide, rfl⟩

theorem primaryEntry (op : Byte) : PrimaryEntry op (primary op) := by
  have := primaryEntry_of_lt op.toNat op.isLt
  rwa [BitVec.ofNat_toNat, BitVec.setWidth_eq] at this

theorem primary_eq_none_iff (op : Byte) : primary op = none ↔ op.toNat ∈ unmappedPrimary := by
  have h := primaryEntry op
  cases hp : primary op with
  | none => rw [hp] at h; exact iff_of_true rfl h
  | some f =>
    rw [hp] at h
    refine iff_of_false (by simp) ?_
    cases f <;> exact h.1

/-! ## The secondary table -/

/-- The 256 entries: what the encoder writes for the pair, and the empty ones. -/
theorem secondary_entry : ∀ op2 : Byte, (secondary op2).map (fun p => encode (Instr.ofRot p.1 p.2)) =
    if unmappedSecondary op2 then none else some [0xCB, op2] := by decide

theorem secondary_eq_none_iff : ∀ op2 : Byte, secondary op2 = none ↔ unmappedSecondary op2 = true := by decide

theorem secondary_of_encode {k : RotKind} {o : Opnd8} {op2 : Byte} (h : encode (Instr.ofRot k o) = [0xCB, op2]) :
    secondary op2 = some (k, o) := by
  rcases o with r | _
  · cases k <;> cases r <;>
      (simp only [Instr.ofRot, encode, List.cons.injEq, and_true, true_and] at h; subst h; decide)
  · cases k <;> (simp only [Instr.ofRot, encode, List.cons.injEq, and_true, true_and] at h; subst h; decide)

theorem encode_of_secondary {k : RotKind} {o : Opnd8} {op2 : Byte} (h : secondary op2 = some (k, o)) :
    encode (Instr.ofRot k o) = [0xCB, op2] := by
  have h2 := secondary_entry op2
  cases hu : unmappedSecondary op2 with
  | true => rw [(secondary_eq_none_iff op2).2 hu] at h; cases h
  | false => rw [h, hu] at h2; simpa using h2

theorem wf_ofRot (k : RotKind) (o : Opnd8) : (Instr.ofRot k o).wf = true := by
  rcases o with r | _
  · cases k <;> cases r <;> rfl
  · cases k <;> rfl

/-! ## What a decoding looks like -/

theorem decodePrefixed_ok (op2 : Byte) : (decodePrefixed op2).wf = true ∧ encode (decodePrefixed op2) = [0xCB, op2] :=
    by
  unfold decodePrefixed
  cases hs : secondary op2 with
  | none => exact ⟨(secondary_eq_none_iff op2).1 hs, rfl⟩
  | some p => exact ⟨wf_ofRot _ _, encode_of_secondary hs⟩

/-- What decodes is well formed, is what the encoder writes, and has the length its first byte says. -/
theorem decode_shape {op : Byte} {rest more : List Byte} {i : Instr} (h : decode (op :: rest) = .ok (i, more)) :
   i.wf = true ∧ (∃ used, rest = used ++ more ∧ encode i = op :: used ∧ used.length + 1 = fetchLength op) := by
  have hp := primaryEntry op
  unfold fetchLength
  cases hq : primary op with
  | none => rw [decode_of_none hq] at h; cases h
  | some f =>
    rw [hq] at hp
    cases f with
    | op j =>
      rw [decode_of_op hq] at h
      obtain ⟨rfl, rfl⟩ : j = i ∧ rest = more := by simpa using h
      exact ⟨hp.2.2, [], rfl, hp.2.1, rfl⟩
    | imm8 g =>
      match rest with
      | [] => simp [decode, hq] at h
      | b :: r =>
        rw [decode_of_imm8 hq] at h
        obtain ⟨rfl, rfl⟩ : g b = i ∧ r = more := by simpa using h
        exact ⟨(hp.2 b).2, [b], rfl, (hp.2 b).1, rfl⟩
    | imm16 g =>
      match rest with
      | [] => simp [decode, hq] at h
      | [b] => simp [decode, hq] at h
      | b :: c :: r =>
        rw [decode_of_imm16 hq] at h
        obtain ⟨rfl, rfl⟩ : g (joinBytes c b) = i ∧ r = more := by simpa using h
        refine ⟨(hp.2 _).2, [b, c], rfl, ?_, rfl⟩
        rw [(hp.2 _).1, encode16]; simp
    | prefixed =>
      match rest with
      | [] => simp [decode, hq] at h
      | b :: r =>
        rw [decode_of_prefixed hq] at h
        obtain ⟨rfl, rfl⟩ : decodePrefixed b = i ∧ r = more := by simpa using h
        exact ⟨(decodePrefixed_ok b).1, [b], rfl, by rw [(decodePrefixed_ok b).2, hp.2], rfl⟩

end Sys2Proof.Machine
end

