-- ==== Sys2Proof/Laws/Ops.lean ====
section
/-! SUPPORT. The shared operations: operands, the stack, and what every operation of one instruction keeps. -/

namespace Sys2Proof.Machine

/-! ## What the operations of an instruction keep, said once -/

/-- `t` has the cartridge and the clock of `s`, and its storage is legal if that of `s` is. -/
structure Keeps (s t : State) : Prop where
  cart : t.cart = s.cart
  clock : t.clock = s.clock
  mbc : s.mbc.legal s.cart.mbcType = true → t.mbc.legal s.cart.mbcType = true
  ram : s.ram.legal s.cart.ramSize.bytes = true → t.ram.legal s.cart.ramSize.bytes = true

theorem Keeps.refl (s : State) : Keeps s s := ⟨rfl, rfl, id, id⟩

theorem Keeps.trans {s t u : State} (h : Keeps s t) (k : Keeps t u) : Keeps s u :=
  ⟨k.cart.trans h.cart, k.clock.trans h.clock,
    fun hs => by have := k.mbc; rw [h.cart] at this; exact this (h.mbc hs),
    fun hs => by have := k.ram; rw [h.cart] at this; exact this (h.ram hs)⟩

/-- A change of the registers and the RTC alone keeps the rest. -/
theorem Keeps.of_sameStorage {s t : State} (h : SameStorage s t) : Keeps s t :=
  ⟨h.2.2.1, h.2.2.2, fun hs => by rw [h.1]; exact hs, fun hs => by rw [h.2.1]; exact hs⟩

theorem Keeps.busRead (a : Word) (s : State) : Keeps s (busRead a s).2 := Keeps.of_sameStorage (busRead_sameStorage a s)

theorem Keeps.busWrite (a : Word) (v : Byte) (s : State) : Keeps s (busWrite a v s) := by
  refine ⟨busWrite_cart a v s, busWrite_clock a v s, fun hs => ?_, fun hs => ?_⟩
  · by_cases ha : a.toNat ≤ 0x7FFF
    · rw [busWrite_low ha]; exact mbc_legal_controlWrite a v hs
    · rw [busWrite_mbc (by omega)]; exact hs
  · by_cases ha : a.toNat ≤ 0x7FFF
    · rw [busWrite_low ha, controlWrite_ram]; exact hs
    · rw [busWrite_high (by omega)]; exact ram_legal_putStore v hs

/-- A legal state stays legal where an operation keeps the storage and `F[3:0]` is zero. -/
theorem State.Legal.keeps {s t : State} (h : s.Legal) (k : Keeps s t) (hf : t.regs.f &&& 0x0F = 0) : t.Legal :=
  ⟨hf, by rw [k.cart]; exact k.mbc h.mbc, by rw [k.cart]; exact k.ram h.ram, by rw [k.cart]; exact h.cart⟩

/-! ## Operands -/

@[simp] theorem readOpnd_reg (r : Reg8) (s : State) : readOpnd (.reg r) s = (s.reg r, s) := rfl
@[simp] theorem readOpnd_mHL (s : State) : readOpnd .mHL s = busRead s.hl s := rfl
@[simp] theorem writeOpnd_reg (r : Reg8) (v : Byte) (s : State) : writeOpnd (.reg r) v s = s.setReg r v := rfl
@[simp] theorem writeOpnd_mHL (v : Byte) (s : State) : writeOpnd .mHL v s = busWrite s.hl v s := rfl

@[simp] theorem readOpnd_regs (o : Opnd8) (s : State) : (readOpnd o s).2.regs = s.regs := by cases o <;> simp
@[simp] theorem readOpnd_get (o : Opnd8) (s : State) (r : Reg8) : (readOpnd o s).2.reg r = s.reg r := by
  cases o <;> simp
@[simp] theorem readOpnd_flagC (o : Opnd8) (s : State) : (readOpnd o s).2.flagC = s.flagC := by cases o <;> simp

theorem readOpnd_sameStorage (o : Opnd8) (s : State) : SameStorage s (readOpnd o s).2 := by
  cases o
  · exact SameStorage.refl s
  · exact busRead_sameStorage _ _

theorem setReg_sameStorage (s : State) (r : Reg8) (v : Byte) : SameStorage s (s.setReg r v) := by simp [SameStorage]

theorem Keeps.readOpnd (o : Opnd8) (s : State) : Keeps s (readOpnd o s).2 :=
  Keeps.of_sameStorage (readOpnd_sameStorage o s)

theorem Keeps.writeOpnd (o : Opnd8) (v : Byte) (s : State) : Keeps s (writeOpnd o v s) := by
  cases o
  · exact Keeps.of_sameStorage (setReg_sameStorage s _ v)
  · exact Keeps.busWrite _ v s

@[simp] theorem writeOpnd_regs_f (o : Opnd8) (v : Byte) (s : State) : (writeOpnd o v s).regs.f = s.regs.f := by
  cases o <;> simp
@[simp] theorem writeOpnd_regs_sp (o : Opnd8) (v : Byte) (s : State) : (writeOpnd o v s).regs.sp = s.regs.sp := by
  cases o <;> simp
@[simp] theorem writeOpnd_regs_pc (o : Opnd8) (v : Byte) (s : State) : (writeOpnd o v s).regs.pc = s.regs.pc := by
  cases o <;> simp
@[simp] theorem writeOpnd_regs_ime (o : Opnd8) (v : Byte) (s : State) : (writeOpnd o v s).regs.ime = s.regs.ime := by
  cases o <;> simp

/-! ## The stack -/

@[simp] theorem pushByte_regs (v : Byte) (s : State) : (pushByte v s).regs = { s.regs with sp := s.regs.sp - 1 } := by
  simp [pushByte, State.setSP]

theorem sp_sub_two (x : Word) : x - 1 - 1 = x - 2 := by
  rw [BitVec.sub_sub]; rfl

theorem sp_add_two (x : Word) : x + 1 + 1 = x + 2 := by
  rw [BitVec.add_assoc]; rfl

@[simp] theorem push16_regs (w : Word) (s : State) : (push16 w s).regs = { s.regs with sp := s.regs.sp - 2 } := by
  rw [push16, pushByte_regs, pushByte_regs, ← sp_sub_two]

@[simp] theorem push16_cart (w : Word) (s : State) : (push16 w s).cart = s.cart := by simp [push16, pushByte]
@[simp] theorem push16_clock (w : Word) (s : State) : (push16 w s).clock = s.clock := by simp [push16, pushByte]

theorem pushByte_eq (v : Byte) (s : State) :
    pushByte v s = { busWrite (s.regs.sp - 1) v s with regs := { s.regs with sp := s.regs.sp - 1 } } :=
  busWrite_withRegs _ v s _

/-- The two writes of a push: high byte at `SP-1`, then low byte at `SP-2`. -/
theorem push16_eq (w : Word) (s : State) :
    push16 w s = { busWrite (s.regs.sp - 2) (loByte w) (busWrite (s.regs.sp - 1) (hiByte w) s) with
      regs := { s.regs with sp := s.regs.sp - 2 } } := by
  rw [push16, pushByte_eq (hiByte w) s, pushByte_eq]
  dsimp only
  rw [busWrite_withRegs, sp_sub_two]

theorem Keeps.pushByte (v : Byte) (s : State) : Keeps s (pushByte v s) :=
  (Keeps.of_sameStorage (t := s.setSP (s.regs.sp - 1)) (by simp [SameStorage])).trans (Keeps.busWrite _ v _)

theorem Keeps.push16 (w : Word) (s : State) : Keeps s (push16 w s) :=
  (Keeps.pushByte _ s).trans (Keeps.pushByte _ _)

@[simp] theorem popByte_fst (s : State) : (popByte s).1 = (busRead s.regs.sp s).1 := rfl
@[simp] theorem popByte_snd (s : State) :
    (popByte s).2 = (busRead s.regs.sp s).2.setSP (s.regs.sp + 1) := by
  simp [popByte]

theorem popByte_sameStorage (s : State) : SameStorage s (popByte s).2 := by simp [SameStorage]

@[simp] theorem pop16_regs (s : State) : (pop16 s).2.regs = { s.regs with sp := s.regs.sp + 2 } := by
  show (popByte (popByte s).2).2.regs = _
  rw [popByte_snd, popByte_snd, ← sp_add_two]
  simp [State.setSP]

@[simp] theorem pop16_reg (s : State) (r : Reg8) : (pop16 s).2.reg r = s.reg r := by
  cases r <;> simp [State.reg]

theorem pop16_sameStorage (s : State) : SameStorage s (pop16 s).2 := by
  unfold pop16
  exact (popByte_sameStorage s).trans (popByte_sameStorage _)

theorem Keeps.pop16 (s : State) : Keeps s (pop16 s).2 := Keeps.of_sameStorage (pop16_sameStorage s)

theorem busRead_setSP (a : Word) (s : State) (x : Word) :
    busRead a (s.setSP x) = ((busRead a s).1, (busRead a s).2.setSP x) := by
  rw [State.setSP, busRead_withRegs]
  simp [State.setSP]

/-- The word a pop gives: the low byte at `SP`, the high byte at `SP+1`. -/
theorem pop16_fst (s : State) :
    (pop16 s).1 = joinBytes (busRead (s.regs.sp + 1) s).1 (busRead s.regs.sp s).1 := by
  show joinBytes (busRead (popByte s).2.regs.sp (popByte s).2).1 (busRead s.regs.sp s).1 = _
  rw [popByte_snd, State.setSP_regs_sp, busRead_setSP, busRead_fst_after]

/-! ## The statements' words for operands and the stack, as the operations -/

theorem State.reg_congr {s t : State} (h : t.regs = s.regs) (r : Reg8) : t.reg r = s.reg r := by
  cases r <;> simp [State.reg, h]

theorem readOpnd_of_opndReads {o : Opnd8} {s s1 : State} {v : Byte} (h : OpndReads o s s1 v) :
    readOpnd o s = (v, s1) := by
  cases o with
  | reg r => obtain ⟨rfl, rfl⟩ := h; rfl
  | mHL => exact h

theorem regs_of_opndReads {o : Opnd8} {s s1 : State} {v : Byte} (h : OpndReads o s s1 v) : s1.regs = s.regs := by
  have := readOpnd_regs o s
  rwa [readOpnd_of_opndReads h] at this

theorem SameOutside.trans {s t u : State} (h : SameOutside s t) (k : SameOutside t u) : SameOutside s u :=
  ⟨h.1.trans k.1, k.2.trans h.2⟩

/-- A state that differs from a written operand's in `F` and `PC` only. -/
theorem opndGets_of_writeOpnd {o : Opnd8} {v : Byte} {s u : State} (ho : SameOutside (writeOpnd o v s) u)
    (hr : ∀ r, u.reg r = (writeOpnd o v s).reg r) (hs : u.regs.sp = s.regs.sp) (hi : u.regs.ime = s.regs.ime) :
    OpndGets o v s u := by
  cases o with
  | reg r =>
    refine ⟨by rw [hr, writeOpnd_reg, State.setReg_reg_same], ⟨fun q hq => ?_, hs, hi⟩, ?_⟩
    · rw [hr]; exact State.setReg_reg_other _ _ (by simpa using hq)
    · exact SameOutside.trans ⟨setReg_sameStorage s r v, State.setReg_rtc s r v⟩ ho
  | mHL => exact ⟨⟨fun q _ => by rw [hr, writeOpnd_mHL, busWrite_reg], hs, hi⟩, ho⟩

theorem regs_of_popReads {s s2 : State} {w : Word} (h : PopReads s s2 w) : s2.regs = s.regs := by
  obtain ⟨l, h', s1, h1, h2, -⟩ := h
  have e2 := busRead_regs (s.regs.sp + 1) s1
  have e1 := busRead_regs s.regs.sp s
  rw [h2] at e2
  rw [h1] at e1
  exact e2.trans e1

theorem pop16_of_popReads {s s2 : State} {w : Word} (h : PopReads s s2 w) :
    pop16 s = (w, s2.setSP (s.regs.sp + 2)) := by
  obtain ⟨l, h', s1, h1, h2, h3⟩ := h
  have e1 : popByte s = (l, s1.setSP (s.regs.sp + 1)) := by
    show ((popByte s).1, (popByte s).2) = _
    rw [popByte_fst, popByte_snd, h1]
  have e2 : popByte (s1.setSP (s.regs.sp + 1)) = (h', s2.setSP (s.regs.sp + 2)) := by
    show ((popByte (s1.setSP (s.regs.sp + 1))).1, (popByte (s1.setSP (s.regs.sp + 1))).2) = _
    rw [popByte_fst, popByte_snd, State.setSP_regs_sp, busRead_setSP, h2, sp_add_two]
    rfl
  have hw : joinBytes h' l = w := BitVec.eq_of_toNat_eq (by rw [joinBytes_toNat, h3])
  rw [pop16, e1]
  dsimp only
  rw [e2, hw]

/-- Outside the CPU a push leaves its two bus writes, and the registers but `SP` stay. -/
theorem push16_sameOutside (w : Word) (s : State) : SameOutside (afterPush w s) (push16 w s) := by
  rw [push16_eq]; exact ⟨⟨rfl, rfl, rfl, rfl⟩, rfl⟩

@[simp] theorem push16_reg (w : Word) (s : State) (r : Reg8) : (push16 w s).reg r = s.reg r := by
  cases r <;> simp [State.reg]

end Sys2Proof.Machine
end

