-- ==== Sys2Proof/Laws/Exec.lean ====
section
/-! SUPPORT. The 218 instructions by family: each constructor is one of the families, and each family runs one shared
operation. With these two, a claim about every instruction has some thirty cases. -/

namespace Sys2Proof.Machine

/-- An instruction as a member of its family. -/
inductive Family : Instr → Prop
  | nop : Family .nop
  | ldReg (d r : Reg8) : Family (Instr.ofLdReg d r)
  | ldFromHL (d : Reg8) : Family (Instr.ofLdFromHL d)
  | ldToHL (r : Reg8) : Family (Instr.ofLdToHL r)
  | ldImm (o : Opnd8) (n : Byte) : Family (Instr.ofLdImm o n)
  | ldPair (p : Pair) (x : Word) : Family (Instr.ofLdPair p x)
  | ldSP (x : Word) : Family (.ld_SP_d16 x)
  | ldAbs (x : Word) : Family (.ld_A_ma16 x)
  | stAbs (x : Word) : Family (.ld_ma16_A x)
  | jp (x : Word) : Family (.jp_a16 x)
  | call (x : Word) : Family (.call_a16 x)
  | ret : Family .ret
  | rst (y : Fin 8) : Family (Instr.ofRst y)
  | jr (e : Byte) : Family (.jr_e8 e)
  | jrCond (cc : Cond) (e : Byte) : Family (Instr.ofJr cc e)
  | push (p : Pair) : Family (Instr.ofPush p)
  | pushAF : Family .push_AF
  | pop (p : Pair) : Family (Instr.ofPop p)
  | popAF : Family .pop_AF
  | inc (o : Opnd8) : Family (Instr.ofInc o)
  | dec (o : Opnd8) : Family (Instr.ofDec o)
  | alu (op : AluOp) (o : Opnd8) : Family (Instr.ofAlu op o)
  | aluImm (op : AluOp) (n : Byte) : Family (Instr.ofAluImm op n)
  | cpl : Family .cpl
  | rlca : Family .rlca
  | rrca : Family .rrca
  | rla : Family .rla
  | rra : Family .rra
  | rot (k : RotKind) (o : Opnd8) : Family (Instr.ofRot k o)
  | prefixCB (op2 : Byte) : Family (.prefix_CB op2)
  | di : Family .di
  | ei : Family .ei

/-- Every instruction belongs to a family. -/
theorem Instr.family : (i : Instr) → Family i
  | .nop => .nop
  | .ld_BC_d16 d16 => .ldPair .BC d16
  | .inc_B => .inc (.reg .B)
  | .dec_B => .dec (.reg .B)
  | .ld_B_d8 d8 => .ldImm (.reg .B) d8
  | .rlca => .rlca
  | .inc_C => .inc (.reg .C)
  | .dec_C => .dec (.reg .C)
  | .ld_C_d8 d8 => .ldImm (.reg .C) d8
  | .rrca => .rrca
  | .ld_DE_d16 d16 => .ldPair .DE d16
  | .inc_D => .inc (.reg .D)
  | .dec_D => .dec (.reg .D)
  | .ld_D_d8 d8 => .ldImm (.reg .D) d8
  | .rla => .rla
  | .jr_e8 e8 => .jr e8
  | .inc_E => .inc (.reg .E)
  | .dec_E => .dec (.reg .E)
  | .ld_E_d8 d8 => .ldImm (.reg .E) d8
  | .rra => .rra
  | .jr_NZ_e8 e8 => .jrCond .NZ e8
  | .ld_HL_d16 d16 => .ldPair .HL d16
  | .inc_H => .inc (.reg .H)
  | .dec_H => .dec (.reg .H)
  | .ld_H_d8 d8 => .ldImm (.reg .H) d8
  | .jr_Z_e8 e8 => .jrCond .Z e8
  | .inc_L => .inc (.reg .L)
  | .dec_L => .dec (.reg .L)
  | .ld_L_d8 d8 => .ldImm (.reg .L) d8
  | .cpl => .cpl
  | .jr_NC_e8 e8 => .jrCond .NC e8
  | .ld_SP_d16 d16 => .ldSP d16
  | .inc_mHL => .inc .mHL
  | .dec_mHL => .dec .mHL
  | .ld_mHL_d8 d8 => .ldImm .mHL d8
  | .jr_C_e8 e8 => .jrCond .C e8
  | .inc_A => .inc (.reg .A)
  | .dec_A => .dec (.reg .A)
  | .ld_A_d8 d8 => .ldImm (.reg .A) d8
  | .ld_B_B => .ldReg .B .B
  | .ld_B_C => .ldReg .B .C
  | .ld_B_D => .ldReg .B .D
  | .ld_B_E => .ldReg .B .E
  | .ld_B_H => .ldReg .B .H
  | .ld_B_L => .ldReg .B .L
  | .ld_B_mHL => .ldFromHL .B
  | .ld_B_A => .ldReg .B .A
  | .ld_C_B => .ldReg .C .B
  | .ld_C_C => .ldReg .C .C
  | .ld_C_D => .ldReg .C .D
  | .ld_C_E => .ldReg .C .E
  | .ld_C_H => .ldReg .C .H
  | .ld_C_L => .ldReg .C .L
  | .ld_C_mHL => .ldFromHL .C
  | .ld_C_A => .ldReg .C .A
  | .ld_D_B => .ldReg .D .B
  | .ld_D_C => .ldReg .D .C
  | .ld_D_D => .ldReg .D .D
  | .ld_D_E => .ldReg .D .E
  | .ld_D_H => .ldReg .D .H
  | .ld_D_L => .ldReg .D .L
  | .ld_D_mHL => .ldFromHL .D
  | .ld_D_A => .ldReg .D .A
  | .ld_E_B => .ldReg .E .B
  | .ld_E_C => .ldReg .E .C
  | .ld_E_D => .ldReg .E .D
  | .ld_E_E => .ldReg .E .E
  | .ld_E_H => .ldReg .E .H
  | .ld_E_L => .ldReg .E .L
  | .ld_E_mHL => .ldFromHL .E
  | .ld_E_A => .ldReg .E .A
  | .ld_H_B => .ldReg .H .B
  | .ld_H_C => .ldReg .H .C
  | .ld_H_D => .ldReg .H .D
  | .ld_H_E => .ldReg .H .E
  | .ld_H_H => .ldReg .H .H
  | .ld_H_L => .ldReg .H .L
  | .ld_H_mHL => .ldFromHL .H
  | .ld_H_A => .ldReg .H .A
  | .ld_L_B => .ldReg .L .B
  | .ld_L_C => .ldReg .L .C
  | .ld_L_D => .ldReg .L .D
  | .ld_L_E => .ldReg .L .E
  | .ld_L_H => .ldReg .L .H
  | .ld_L_L => .ldReg .L .L
  | .ld_L_mHL => .ldFromHL .L
  | .ld_L_A => .ldReg .L .A
  | .ld_mHL_B => .ldToHL .B
  | .ld_mHL_C => .ldToHL .C
  | .ld_mHL_D => .ldToHL .D
  | .ld_mHL_E => .ldToHL .E
  | .ld_mHL_H => .ldToHL .H
  | .ld_mHL_L => .ldToHL .L
  | .ld_mHL_A => .ldToHL .A
  | .ld_A_B => .ldReg .A .B
  | .ld_A_C => .ldReg .A .C
  | .ld_A_D => .ldReg .A .D
  | .ld_A_E => .ldReg .A .E
  | .ld_A_H => .ldReg .A .H
  | .ld_A_L => .ldReg .A .L
  | .ld_A_mHL => .ldFromHL .A
  | .ld_A_A => .ldReg .A .A
  | .add_A_B => .alu .add (.reg .B)
  | .add_A_C => .alu .add (.reg .C)
  | .add_A_D => .alu .add (.reg .D)
  | .add_A_E => .alu .add (.reg .E)
  | .add_A_H => .alu .add (.reg .H)
  | .add_A_L => .alu .add (.reg .L)
  | .add_A_mHL => .alu .add .mHL
  | .add_A_A => .alu .add (.reg .A)
  | .sub_B => .alu .sub (.reg .B)
  | .sub_C => .alu .sub (.reg .C)
  | .sub_D => .alu .sub (.reg .D)
  | .sub_E => .alu .sub (.reg .E)
  | .sub_H => .alu .sub (.reg .H)
  | .sub_L => .alu .sub (.reg .L)
  | .sub_mHL => .alu .sub .mHL
  | .sub_A => .alu .sub (.reg .A)
  | .xor_B => .alu .xor (.reg .B)
  | .xor_C => .alu .xor (.reg .C)
  | .xor_D => .alu .xor (.reg .D)
  | .xor_E => .alu .xor (.reg .E)
  | .xor_H => .alu .xor (.reg .H)
  | .xor_L => .alu .xor (.reg .L)
  | .xor_mHL => .alu .xor .mHL
  | .xor_A => .alu .xor (.reg .A)
  | .cp_B => .alu .cp (.reg .B)
  | .cp_C => .alu .cp (.reg .C)
  | .cp_D => .alu .cp (.reg .D)
  | .cp_E => .alu .cp (.reg .E)
  | .cp_H => .alu .cp (.reg .H)
  | .cp_L => .alu .cp (.reg .L)
  | .cp_mHL => .alu .cp .mHL
  | .cp_A => .alu .cp (.reg .A)
  | .pop_BC => .pop .BC
  | .jp_a16 a16 => .jp a16
  | .push_BC => .push .BC
  | .add_A_d8 d8 => .aluImm .add d8
  | .rst_0x00 => .rst 0
  | .ret => .ret
  | .prefix_CB op2 => .prefixCB op2
  | .call_a16 a16 => .call a16
  | .rst_0x08 => .rst 1
  | .pop_DE => .pop .DE
  | .push_DE => .push .DE
  | .sub_d8 d8 => .aluImm .sub d8
  | .rst_0x10 => .rst 2
  | .rst_0x18 => .rst 3
  | .pop_HL => .pop .HL
  | .push_HL => .push .HL
  | .rst_0x20 => .rst 4
  | .ld_ma16_A a16 => .stAbs a16
  | .xor_d8 d8 => .aluImm .xor d8
  | .rst_0x28 => .rst 5
  | .pop_AF => .popAF
  | .di => .di
  | .push_AF => .pushAF
  | .rst_0x30 => .rst 6
  | .ld_A_ma16 a16 => .ldAbs a16
  | .ei => .ei
  | .cp_d8 d8 => .aluImm .cp d8
  | .rst_0x38 => .rst 7
  | .rlc_B => .rot .rlc (.reg .B)
  | .rlc_C => .rot .rlc (.reg .C)
  | .rlc_D => .rot .rlc (.reg .D)
  | .rlc_E => .rot .rlc (.reg .E)
  | .rlc_H => .rot .rlc (.reg .H)
  | .rlc_L => .rot .rlc (.reg .L)
  | .rlc_mHL => .rot .rlc .mHL
  | .rlc_A => .rot .rlc (.reg .A)
  | .rrc_B => .rot .rrc (.reg .B)
  | .rrc_C => .rot .rrc (.reg .C)
  | .rrc_D => .rot .rrc (.reg .D)
  | .rrc_E => .rot .rrc (.reg .E)
  | .rrc_H => .rot .rrc (.reg .H)
  | .rrc_L => .rot .rrc (.reg .L)
  | .rrc_mHL => .rot .rrc .mHL
  | .rrc_A => .rot .rrc (.reg .A)
  | .rl_B => .rot .rl (.reg .B)
  | .rl_C => .rot .rl (.reg .C)
  | .rl_D => .rot .rl (.reg .D)
  | .rl_E => .rot .rl (.reg .E)
  | .rl_H => .rot .rl (.reg .H)
  | .rl_L => .rot .rl (.reg .L)
  | .rl_mHL => .rot .rl .mHL
  | .rl_A => .rot .rl (.reg .A)
  | .rr_B => .rot .rr (.reg .B)
  | .rr_C => .rot .rr (.reg .C)
  | .rr_D => .rot .rr (.reg .D)
  | .rr_E => .rot .rr (.reg .E)
  | .rr_H => .rot .rr (.reg .H)
  | .rr_L => .rot .rr (.reg .L)
  | .rr_mHL => .rot .rr .mHL
  | .rr_A => .rot .rr (.reg .A)
  | .sla_B => .rot .sla (.reg .B)
  | .sla_C => .rot .sla (.reg .C)
  | .sla_D => .rot .sla (.reg .D)
  | .sla_E => .rot .sla (.reg .E)
  | .sla_H => .rot .sla (.reg .H)
  | .sla_L => .rot .sla (.reg .L)
  | .sla_mHL => .rot .sla .mHL
  | .sla_A => .rot .sla (.reg .A)
  | .sra_B => .rot .sra (.reg .B)
  | .sra_C => .rot .sra (.reg .C)
  | .sra_D => .rot .sra (.reg .D)
  | .sra_E => .rot .sra (.reg .E)
  | .sra_H => .rot .sra (.reg .H)
  | .sra_L => .rot .sra (.reg .L)
  | .sra_mHL => .rot .sra .mHL
  | .sra_A => .rot .sra (.reg .A)
  | .srl_B => .rot .srl (.reg .B)
  | .srl_C => .rot .srl (.reg .C)
  | .srl_D => .rot .srl (.reg .D)
  | .srl_E => .rot .srl (.reg .E)
  | .srl_H => .rot .srl (.reg .H)
  | .srl_L => .rot .srl (.reg .L)
  | .srl_mHL => .rot .srl .mHL
  | .srl_A => .rot .srl (.reg .A)

/-! ## What runs for each family -/

section
variable (s : State)

theorem exec_of_nop : exec .nop s = nopOp s := rfl

theorem exec_ofLdReg (d r : Reg8) : exec (Instr.ofLdReg d r) s = loadReg d r s := by
  cases d <;> cases r <;> rfl

theorem exec_ofLdFromHL (d : Reg8) : exec (Instr.ofLdFromHL d) s = loadFromHL d s := by cases d <;> rfl

theorem exec_ofLdToHL (r : Reg8) : exec (Instr.ofLdToHL r) s = storeToHL r s := by cases r <;> rfl

theorem exec_ofLdImm (o : Opnd8) (n : Byte) : exec (Instr.ofLdImm o n) s = loadImm o n s := by
  rcases o with r | _
  · cases r <;> rfl
  · rfl

theorem exec_ofLdPair (p : Pair) (x : Word) : exec (Instr.ofLdPair p x) s = loadPair p x s := by cases p <;> rfl

theorem exec_ofInc (o : Opnd8) : exec (Instr.ofInc o) s = incOpnd o s := by
  rcases o with r | _
  · cases r <;> rfl
  · rfl

theorem exec_ofDec (o : Opnd8) : exec (Instr.ofDec o) s = decOpnd o s := by
  rcases o with r | _
  · cases r <;> rfl
  · rfl

theorem exec_ofAlu (op : AluOp) (o : Opnd8) : exec (Instr.ofAlu op o) s = aluOpnd op o s := by
  rcases o with r | _
  · cases op <;> cases r <;> rfl
  · cases op <;> rfl

theorem exec_ofAluImm (op : AluOp) (n : Byte) : exec (Instr.ofAluImm op n) s = aluImm op n s := by cases op <;> rfl

theorem exec_ofRot (k : RotKind) (o : Opnd8) : exec (Instr.ofRot k o) s = rotateOpnd k o s := by
  rcases o with r | _
  · cases k <;> cases r <;> rfl
  · cases k <;> rfl

theorem exec_ofRotA {k : RotKind} {i : Instr} (h : Instr.ofRotA k = some i) : exec i s = rotateA k s := by
  cases k <;> simp only [Instr.ofRotA, Option.some.injEq, reduceCtorEq] at h <;> subst h <;> rfl

theorem exec_ofPush (p : Pair) : exec (Instr.ofPush p) s = pushWord (s.pair p) s := by cases p <;> rfl

theorem exec_ofPop (p : Pair) : exec (Instr.ofPop p) s = popPair p s := by cases p <;> rfl

theorem exec_ofJr (cc : Cond) (e : Byte) : exec (Instr.ofJr cc e) s = jumpRel (s.holds cc) e s := by
  cases cc <;> rfl

theorem exec_ofRst (y : Fin 8) : exec (Instr.ofRst y) s = call 1 (BitVec.ofNat 16 (8 * y.val)) s := by
  match y with
  | 0 => rfl
  | 1 => rfl
  | 2 => rfl
  | 3 => rfl
  | 4 => rfl
  | 5 => rfl
  | 6 => rfl
  | 7 => rfl

theorem exec_of_prefix_CB (op2 : Byte) : exec (.prefix_CB op2) s = dispatchPrefixed op2 s := rfl

end

/-! ## The operations that read first, with the two halves of a read named -/

section
variable (s : State)

theorem loadFromHL_eq (d : Reg8) :
    loadFromHL d s = .next (((busRead s.hl s).2.setReg d (busRead s.hl s).1).advance 1) := rfl

theorem loadAbs_eq (a : Word) : loadAbs a s = .next (((busRead a s).2.setReg .A (busRead a s).1).advance 3) := rfl

theorem returnOp_eq : returnOp s = .next ((pop16 s).2.jump (pop16 s).1) := rfl

theorem popPair_eq (p : Pair) : popPair p s = .next (((pop16 s).2.setPair p (pop16 s).1).advance 1) := rfl

theorem popAF_eq : popAF s = .next (((pop16 s).2.setAF (pop16 s).1).advance 1) := rfl

theorem incOpnd_eq (o : Opnd8) :
    incOpnd o s = .next (((writeOpnd o (incByte (readOpnd o s).1) (readOpnd o s).2).setIncFlags (readOpnd o s).1).advance 1) :=
  rfl

theorem decOpnd_eq (o : Opnd8) :
    decOpnd o s = .next (((writeOpnd o (decByte (readOpnd o s).1) (readOpnd o s).2).setDecFlags (readOpnd o s).1).advance 1) :=
  rfl

theorem aluOpnd_eq (op : AluOp) (o : Opnd8) :
    aluOpnd op o s = .next ((aluOnA op (readOpnd o s).1 (readOpnd o s).2).advance 1) := rfl

theorem rotateOpnd_eq (k : RotKind) (o : Opnd8) :
    rotateOpnd k o s =
      .next (((writeOpnd o (rotResult k (readOpnd o s).1 s.flagC) (readOpnd o s).2).setRotFlags
        (rotResult k (readOpnd o s).1 s.flagC) (rotOut k (readOpnd o s).1)).advance 2) := rfl

theorem jumpRel_eq (taken : Bool) (e : Byte) :
    jumpRel taken e s = .next (s.jump (if taken then s.regs.pc + 2 + sext16 e else s.regs.pc + 2)) := by
  cases taken <;> rfl

theorem dispatchPrefixed_of_secondary {op2 : Byte} {k : RotKind} {o : Opnd8} (h : secondary op2 = some (k, o)) :
    dispatchPrefixed op2 s = rotateOpnd k o s := by
  rw [dispatchPrefixed, h]

theorem dispatchPrefixed_of_none {op2 : Byte} (h : secondary op2 = none) :
    dispatchPrefixed op2 s = .fault (.unmappedOpcode .secondary op2 s.regs.pc s) := by
  rw [dispatchPrefixed, h]; rfl

end

/-- What `exec` answers, one case a family: the induction principle of every claim about all instructions. -/
theorem exec_elim {P : Instr → Result → Prop} (s : State)
    (nop : P .nop (nopOp s))
    (ldReg : ∀ d r, P (Instr.ofLdReg d r) (loadReg d r s))
    (ldFromHL : ∀ d, P (Instr.ofLdFromHL d) (loadFromHL d s))
    (ldToHL : ∀ r, P (Instr.ofLdToHL r) (storeToHL r s))
    (ldImm : ∀ o n, P (Instr.ofLdImm o n) (loadImm o n s))
    (ldPair : ∀ p x, P (Instr.ofLdPair p x) (loadPair p x s))
    (ldSP : ∀ x, P (.ld_SP_d16 x) (loadSP x s))
    (ldAbs : ∀ x, P (.ld_A_ma16 x) (loadAbs x s))
    (stAbs : ∀ x, P (.ld_ma16_A x) (storeAbs x s))
    (jp : ∀ x, P (.jp_a16 x) (jumpAbs x s))
    (callAbs : ∀ x, P (.call_a16 x) (call 3 x s))
    (ret : P .ret (returnOp s))
    (rst : ∀ y : Fin 8, P (Instr.ofRst y) (call 1 (BitVec.ofNat 16 (8 * y.val)) s))
    (jr : ∀ e, P (.jr_e8 e) (jumpRel true e s))
    (jrCond : ∀ cc e, P (Instr.ofJr cc e) (jumpRel (s.holds cc) e s))
    (push : ∀ p, P (Instr.ofPush p) (pushWord (s.pair p) s))
    (pushAF : P .push_AF (pushWord s.af s))
    (pop : ∀ p, P (Instr.ofPop p) (popPair p s))
    (popOfAF : P .pop_AF (popAF s))
    (inc : ∀ o, P (Instr.ofInc o) (incOpnd o s))
    (dec : ∀ o, P (Instr.ofDec o) (decOpnd o s))
    (alu : ∀ op o, P (Instr.ofAlu op o) (aluOpnd op o s))
    (aluWithImm : ∀ op n, P (Instr.ofAluImm op n) (aluImm op n s))
    (cpl : P .cpl (complement s))
    (rotA : ∀ k i, Instr.ofRotA k = some i → P i (rotateA k s))
    (rot : ∀ k o, P (Instr.ofRot k o) (rotateOpnd k o s))
    (prefixed : ∀ op2, P (.prefix_CB op2) (dispatchPrefixed op2 s))
    (di : P .di (setInterrupts false s))
    (ei : P .ei (setInterrupts true s)) (i : Instr) : P i (exec i s) := by
  cases Instr.family i
  case nop => exact nop
  case ldReg d r => rw [exec_ofLdReg]; exact ldReg d r
  case ldFromHL d => rw [exec_ofLdFromHL]; exact ldFromHL d
  case ldToHL d => rw [exec_ofLdToHL]; exact ldToHL d
  case ldImm o n => rw [exec_ofLdImm]; exact ldImm o n
  case ldPair o n => rw [exec_ofLdPair]; exact ldPair o n
  case ldSP x => exact ldSP x
  case ldAbs x => exact ldAbs x
  case stAbs x => exact stAbs x
  case jp x => exact jp x
  case call x => exact callAbs x
  case ret => exact ret
  case rst y => rw [exec_ofRst]; exact rst y
  case jr e => exact jr e
  case jrCond cc e => rw [exec_ofJr]; exact jrCond cc e
  case push p => rw [exec_ofPush]; exact push p
  case pushAF => exact pushAF
  case pop p => rw [exec_ofPop]; exact pop p
  case popAF => exact popOfAF
  case inc o => rw [exec_ofInc]; exact inc o
  case dec o => rw [exec_ofDec]; exact dec o
  case alu op o => rw [exec_ofAlu]; exact alu op o
  case aluImm op n => rw [exec_ofAluImm]; exact aluWithImm op n
  case cpl => exact cpl
  case rlca => exact rotA .rlc _ rfl
  case rrca => exact rotA .rrc _ rfl
  case rla => exact rotA .rl _ rfl
  case rra => exact rotA .rr _ rfl
  case rot k o => rw [exec_ofRot]; exact rot k o
  case prefixCB op2 => exact prefixed op2
  case di => exact di
  case ei => exact ei

end Sys2Proof.Machine
end

