-- ==== Sys2Proof/Laws/Fetch.lean ====
section
/-! SUPPORT. Fetching: how many bytes, never too few, what the fetch can change, and quiet fetches. -/

namespace Sys2Proof.Machine

theorem fetchBytes_length (n : Nat) (a : Word) (s : State) : (fetchBytes n a s).1.length = n := by
  induction n generalizing a s with
  | zero => rfl
  | succ n ih =>
    show ((busRead a s).1 :: (fetchBytes n (a + 1) (busRead a s).2).1).length = n + 1
    rw [List.length_cons, ih]

theorem fetchBytes_sameStorage (n : Nat) (a : Word) (s : State) :
    SameStorage s (fetchBytes n a s).2 ∧ (fetchBytes n a s).2.regs = s.regs := by
  induction n generalizing a s with
  | zero => exact ⟨SameStorage.refl s, rfl⟩
  | succ n ih =>
    have h := ih (a + 1) (busRead a s).2
    exact ⟨(busRead_sameStorage a s).trans h.1, h.2.trans (busRead_regs a s)⟩

/-- A fetch leaves everything but the RTC. -/
theorem fetch_sameStorage (s : State) : SameStorage s (fetch s).2 ∧ (fetch s).2.regs = s.regs := by
  have h := fetchBytes_sameStorage (fetchLength (busRead s.regs.pc s).1 - 1) (s.regs.pc + 1) (busRead s.regs.pc s).2
  exact ⟨(busRead_sameStorage _ s).trans h.1, h.2.trans (busRead_regs _ s)⟩

theorem fetch_bytes (s : State) :
    (fetch s).1 = (busRead s.regs.pc s).1 ::
      (fetchBytes (fetchLength (busRead s.regs.pc s).1 - 1) (s.regs.pc + 1) (busRead s.regs.pc s).2).1 := rfl

/-- A list of the fetched length decodes, or its first byte is unmapped: it is never too short. -/
theorem decode_of_length (op : Byte) (rest : List Byte) (h : rest.length = fetchLength op - 1) :
    (primary op = none ∧ decode (op :: rest) = .error (.unmappedPrimary op)) ∨ ∃ i,
        decode (op :: rest) = .ok (i, []) := by
  unfold fetchLength at h
  cases hp : primary op with
  | none => exact .inl ⟨rfl, by simp [decode, hp]⟩
  | some f =>
    rw [hp] at h
    right
    cases f with
    | op i =>
      obtain rfl : rest = [] := List.eq_nil_of_length_eq_zero h
      exact ⟨i, by simp [decode, hp]⟩
    | imm8 g =>
      match rest, h with
      | [b], _ => exact ⟨g b, by simp [decode, hp]⟩
    | imm16 g =>
      match rest, h with
      | [b, c], _ => exact ⟨_, by simp [decode, hp]; rfl⟩
    | prefixed =>
      match rest, h with
      | [b], _ => exact ⟨decodePrefixed b, by simp [decode, hp]⟩

/-- What a fetch gives decodes to one whole instruction, or its first byte is unmapped. -/
theorem decode_fetch (s : State) :
    (primary (busRead s.regs.pc s).1 = none ∧
      decode (fetch s).1 = .error (.unmappedPrimary (busRead s.regs.pc s).1)) ∨
    ∃ i, decode (fetch s).1 = .ok (i, []) := by
  rw [fetch_bytes]
  exact decode_of_length _ _ (fetchBytes_length _ _ _)

/-- The step as the spec writes it: Halted on an unmapped first byte, else the instruction's meaning. -/
theorem step_cases (s : State) :
    (primary (busRead s.regs.pc s.takeSample).1 = none ∧
      step s = .fault (.unmappedOpcode .primary (busRead s.regs.pc s.takeSample).1 s.regs.pc (fetch s.takeSample).2)) ∨
    ∃ i, decode (fetch s.takeSample).1 = .ok (i, []) ∧ step s = exec i (fetch s.takeSample).2 := by
  have h := decode_fetch s.takeSample
  have hr := (fetch_sameStorage s.takeSample).2
  simp only [State.takeSample_regs] at h hr
  rcases h with ⟨hp, hd⟩ | ⟨i, hd⟩
  · refine .inl ⟨hp, ?_⟩
    rw [step, runDecoded, hd]
    show Host.Outcome.fault _ = _
    rw [hr]
  · exact .inr ⟨i, hd, by rw [step, runDecoded, hd]⟩

/-- Quiet reads of consecutive addresses give the bytes that stand there and change nothing. -/
theorem fetchBytes_quiet (s : State) : ∀ (n : Nat) (a : Word),
    (∀ k, k < n → QuietRead s (a + BitVec.ofNat 16 k)) →
    fetchBytes n a s = ((List.range n).map fun k => (busRead (a + BitVec.ofNat 16 k) s).1, s)
  | 0, _, _ => rfl
  | n + 1, a, h => by
    have h0 : a + BitVec.ofNat 16 0 = a := by simp
    have hs : ∀ k, a + 1 + BitVec.ofNat 16 k = a + BitVec.ofNat 16 (k + 1) := by
      intro k
      rw [BitVec.add_assoc]
      congr 1
      apply BitVec.eq_of_toNat_eq
      simp [BitVec.toNat_add, Nat.add_comm]
    have hq : (busRead a s).2 = s := by
      rw [busRead_quiet (by have := h 0 (by omega); rwa [h0] at this)]
    have ih := fetchBytes_quiet s n (a + 1) fun k hk => by rw [hs]; exact h (k + 1) (by omega)
    show ((busRead a s).1 :: (fetchBytes n (a + 1) (busRead a s).2).1, (fetchBytes n (a + 1) (busRead a s).2).2) = _
    rw [hq, ih, List.range_succ_eq_map, List.map_cons, List.map_map, h0]
    simp only [hs]
    rfl

/-! ## The clock sample changes nothing else -/

theorem takeSample_same (s : State) : s.takeSample.regs = s.regs ∧
    s.takeSample.mbc = s.mbc ∧ s.takeSample.ram = s.ram ∧ s.takeSample.cart = s.cart ∧ s.takeSample.rtc = s.rtc := by
  unfold State.takeSample; split <;> exact ⟨rfl, rfl, rfl, rfl, rfl⟩

theorem route_takeSample (s : State) (a : Word) : route s.takeSample a = route s a :=
  route_congr (takeSample_same s).2.1 (takeSample_same s).2.2.2.1 a

theorem quietRead_takeSample {s : State} {a : Word} (h : QuietRead s a) : QuietRead s.takeSample a := by
  intro r; rw [route_takeSample]; exact h r

theorem busRead_fst_takeSample {s : State} {a : Word} (h : QuietRead s a) :
    (busRead a s.takeSample).1 = (busRead a s).1 := by
  rw [busRead_quiet (quietRead_takeSample h), busRead_quiet h, route_takeSample]
  cases route s a <;> simp [State.storeByte]

end Sys2Proof.Machine
end

