-- ==== Sys2Proof/Laws/Kept.lean ====
section
/-! SUPPORT. What every instruction keeps: the cartridge, the clock, legal storage, and a zero low nibble of `F`. -/

namespace Sys2Proof.Machine

/-- `P` of the state that an outcome carries: the next state, or the state after a Halted step. -/
def Carried (P : State → Prop) (r : Result) : Prop := match r with
  | .next t => P t
  | .fault (.unmappedOpcode _ _ _ t) => P t
  | .refused _ => True

/-- `t` keeps the cartridge and the clock of `s`, its storage is legal if that of `s` is, and `F[3:0]` stays zero. -/
structure KeepsGood (s t : State) : Prop where
  keeps : Keeps s t
  low : s.regs.f &&& 0x0F = 0 → t.regs.f &&& 0x0F = 0

theorem Keeps.alu (op : AluOp) (b : Byte) (s : State) : Keeps s (aluOnA op b s) := by
  apply Keeps.of_sameStorage
  cases op <;> simp [aluOnA, State.setAddFlags, State.setSubFlags, State.setXorFlags, SameStorage]

theorem KeepsGood.of {s t : State} (k : Keeps s t) (h : t.regs.f = s.regs.f) : KeepsGood s t :=
    ⟨k, fun e => by rw [h]; exact e⟩

theorem Keeps.advance (s : State) (n : Nat) : Keeps s (s.advance n) := ⟨rfl, rfl, id, id⟩

theorem Keeps.jump (s : State) (n : Word) : Keeps s (s.jump n) := ⟨rfl, rfl, id, id⟩

theorem Keeps.setReg (s : State) (r : Reg8) (n : Byte) : Keeps s (s.setReg r n) :=
    Keeps.of_sameStorage (setReg_sameStorage s r n)

theorem Keeps.setZNHC (s : State) (z n h c : Bool) : Keeps s (s.setZNHC z n h c) := ⟨rfl, rfl, id, id⟩

theorem Keeps.setZNH (s : State) (z n h : Bool) : Keeps s (s.setZNH z n h) := ⟨rfl, rfl, id, id⟩

theorem Keeps.setCplFlags (s : State) : Keeps s s.setCplFlags := ⟨rfl, rfl, id, id⟩

theorem Keeps.setAF (s : State) (w : Word) : Keeps s (s.setAF w) := ⟨rfl, rfl, id, id⟩

theorem advance_f {s : State} {n : Nat} : (s.advance n).regs.f = s.regs.f := rfl

theorem low_of_masked (b : Byte) : b &&& 0xF0 &&& 0x0F = 0 := by revert b; decide

/-- Every instruction keeps a good state good, whichever outcome it has. -/
theorem exec_keepsGood (i : Instr) (s : State) : Carried (KeepsGood s) (exec i s) := by
  have rotgood : ∀ k o, Carried (KeepsGood s) (rotateOpnd k o s) := by
    intro k o
    rw [rotateOpnd_eq]
    refine ⟨(Keeps.readOpnd o s).trans ((Keeps.writeOpnd _ _ _).trans ((Keeps.setZNHC _ _ _ _ _).trans (Keeps.advance _ _))), fun h => ?_⟩
    rw [advance_f, State.setRotFlags, State.setZNHC_lowNibble]; simpa using h
  have alugood : ∀ op b s1, Keeps s s1 → s1.regs = s.regs → ∀ n, KeepsGood s ((aluOnA op b s1).advance n) := by
    intro op b s1 hk hr n
    refine ⟨hk.trans ((Keeps.alu op b s1).trans (Keeps.advance _ _)), fun h => ?_⟩
    rw [advance_f]
    cases op <;> simp only [aluOnA, State.setAddFlags,
        State.setSubFlags, State.setXorFlags, State.setZNHC_lowNibble] <;> simpa [hr] using h
  apply exec_elim (P := fun _ r => Carried (KeepsGood s) r) s
  case nop => exact .of (Keeps.advance _ _) rfl
  case ldReg => intro d r; exact .of ((Keeps.setReg _ _ _).trans (Keeps.advance _ _)) (by simp)
  case ldFromHL => intro d; exact .of ((Keeps.busRead _ _).trans ((Keeps.setReg _ _ _).trans (Keeps.advance _ _))) (by simp)
  case ldToHL => intro d; exact .of ((Keeps.busWrite _ _ _).trans (Keeps.advance _ _)) (by simp)
  case ldImm => intro d n; exact .of ((Keeps.writeOpnd _ _ _).trans (Keeps.advance _ _)) (by simp)
  case ldPair => intro d n; exact .of ((Keeps.setReg _ _ _).trans ((Keeps.setReg _ _ _).trans (Keeps.advance _ _))) (by simp [State.setPair])
  case ldSP => intro x; exact .of ⟨rfl, rfl, id, id⟩ rfl
  case ldAbs => intro d; exact .of ((Keeps.busRead _ _).trans ((Keeps.setReg _ _ _).trans (Keeps.advance _ _))) (by simp)
  case stAbs => intro d; exact .of ((Keeps.busWrite _ _ _).trans (Keeps.advance _ _)) (by simp)
  case jp => intro x; exact .of (Keeps.jump _ _) rfl
  case callAbs => intro x; exact .of ((Keeps.push16 _ _).trans (Keeps.jump _ _)) (by simp)
  case ret => exact .of ((Keeps.pop16 _).trans (Keeps.jump _ _)) (by simp)
  case rst => intro x; exact .of ((Keeps.push16 _ _).trans (Keeps.jump _ _)) (by simp)
  case jr => intro e; exact .of (Keeps.jump _ _) rfl
  case jrCond => intro cc e; cases s.holds cc <;> exact .of (Keeps.jump _ _) rfl
  case push => intro p; exact .of ((Keeps.push16 _ _).trans (Keeps.advance _ _)) (by simp)
  case pushAF => exact .of ((Keeps.push16 _ _).trans (Keeps.advance _ _)) (by simp)
  case pop => intro p; exact .of ((Keeps.pop16 _).trans ((Keeps.setReg _ _ _).trans ((Keeps.setReg _ _ _).trans (Keeps.advance _ _)))) (by simp [State.setPair])
  case popOfAF => exact ⟨(Keeps.pop16 _).trans ((Keeps.setAF _ _).trans (Keeps.advance _ _)), fun _ => low_of_masked _⟩
  case inc =>
    intro o
    rw [incOpnd_eq]
    refine ⟨(Keeps.readOpnd o s).trans ((Keeps.writeOpnd _ _ _).trans ((Keeps.setZNH _ _ _ _).trans (Keeps.advance _ _))), fun h => ?_⟩
    rw [advance_f, State.setIncFlags, State.setZNH_lowNibble]; simpa using h
  case dec =>
    intro o
    rw [decOpnd_eq]
    refine ⟨(Keeps.readOpnd o s).trans ((Keeps.writeOpnd _ _ _).trans ((Keeps.setZNH _ _ _ _).trans (Keeps.advance _ _))), fun h => ?_⟩
    rw [advance_f, State.setDecFlags, State.setZNH_lowNibble]; simpa using h
  case alu => intro op o; exact alugood op _ _ (Keeps.readOpnd o s) (readOpnd_regs o s) 1
  case aluWithImm => intro op n; exact alugood op n s (Keeps.refl s) rfl 2
  case cpl => 
    refine ⟨(Keeps.setReg _ _ _).trans ((Keeps.setCplFlags _).trans (Keeps.advance _ _)), fun h => ?_⟩
    rw [advance_f]
    exact (State.setCplFlags_lowNibble _).trans (by simpa using h)
  case rotA =>
    intro k i _
    refine ⟨(Keeps.setReg _ _ _).trans ((Keeps.setZNHC _ _ _ _ _).trans (Keeps.advance _ _)), fun h => ?_⟩
    rw [advance_f, State.setRotFlags, State.setZNHC_lowNibble]; simpa using h
  case rot => exact rotgood
  case prefixed =>
    intro op2
    rw [dispatchPrefixed]
    cases secondary op2 with
    | none => exact .of (Keeps.refl s) rfl
    | some p => exact rotgood _ _
  case di => exact .of ⟨rfl, rfl, id, id⟩ rfl
  case ei => exact .of ⟨rfl, rfl, id, id⟩ rfl

/-- Every instruction but the prefix row with an unmapped second byte completes. -/
theorem exec_next (i : Instr) (s : State) (h : ∀ op2, i = .prefix_CB op2 → unmappedSecondary op2 = false) :
    ∃ t, exec i s = .next t := by
  cases Instr.family i <;> (try rw [exec_ofLdReg]) <;> (try rw [exec_ofLdFromHL]) <;>
      (try rw [exec_ofLdToHL]) <;> (try rw [exec_ofLdImm]) <;> (try rw [exec_ofLdPair]) <;> (try rw [exec_ofInc]) <;> (try rw [exec_ofDec]) <;> (try rw [exec_ofAlu]) <;> (try rw [exec_ofAluImm]) <;> (try rw [exec_ofRot]) <;> (try rw [exec_ofPush]) <;> (try rw [exec_ofPop]) <;> (try rw [exec_ofRst])
  case prefixCB op2 =>
    rw [exec_of_prefix_CB, dispatchPrefixed]
    cases hs : secondary op2 with
    | none => have := h op2 rfl; rw [(secondary_eq_none_iff op2).1 hs] at this; cases this
    | some p => exact ⟨_, rfl⟩
  case jr e => exact ⟨_, rfl⟩
  case jrCond cc e => rw [exec_ofJr]; cases s.holds cc <;> exact ⟨_, rfl⟩
  all_goals exact ⟨_, rfl⟩

end Sys2Proof.Machine
end

