-- ==== Sys2Proof/Laws/Reads.lean ====
section
/-! SUPPORT. Operations that only read: they leave the storage, and the RTC up to the refresh of a read, so every byte
reads as before. Adjacent addresses of plain storage are two stores. -/

namespace Sys2Proof.Machine

/-- `t` is `s` after some reads and register changes. -/
def OnlyReads (s t : State) : Prop := SameStorage s t ∧ t.rtc.beforeRead s.clock.now = s.rtc.beforeRead s.clock.now

theorem OnlyReads.trans {s t u : State} (h : OnlyReads s t) (k : OnlyReads t u) : OnlyReads s u := by
  refine ⟨h.1.trans k.1, ?_⟩
  have := k.2
  rw [h.1.2.2.2] at this
  exact this.trans h.2

theorem OnlyReads.read (a : Word) (s : State) : OnlyReads s (busRead a s).2 :=
    ⟨busRead_sameStorage a s, busRead_beforeRead a s⟩

theorem OnlyReads.of {s t : State} (h : SameStorage s t) (h2 : t.rtc = s.rtc) : OnlyReads s t := ⟨h, by rw [h2]⟩

/-- Every byte reads as before. -/
theorem OnlyReads.bytes {s t : State} (h : OnlyReads s t) (b : Word) : (busRead b t).1 = (busRead b s).1 :=
  busRead_fst_congr h.1 (by rw [h.1.2.2.2]; exact h.2) b

theorem OnlyReads.opnd (o : Opnd8) (s : State) : OnlyReads s (readOpnd o s).2 := by
  cases o
  · exact .of (SameStorage.refl s) rfl
  · exact OnlyReads.read _ _

theorem OnlyReads.pop (s : State) : OnlyReads s (pop16 s).2 := by
  have hp : ∀ u, OnlyReads u (popByte u).2 := fun u => by
    rw [popByte_snd]; exact (OnlyReads.read _ u).trans (.of ⟨rfl, rfl, rfl, rfl⟩ rfl)
  exact (hp s).trans (hp _)

theorem OnlyReads.adv (s : State) (n : Nat) : OnlyReads s (s.advance n) := .of ⟨rfl, rfl, rfl, rfl⟩ rfl

theorem OnlyReads.jump (s : State) (n : Word) : OnlyReads s (s.jump n) := .of ⟨rfl, rfl, rfl, rfl⟩ rfl

theorem OnlyReads.setReg (s : State) (r : Reg8) (v : Byte) : OnlyReads s (s.setReg r v) :=
    .of (setReg_sameStorage s r v) (State.setReg_rtc s r v)

theorem OnlyReads.alu (op : AluOp) (b : Byte) (s : State) : OnlyReads s (aluOnA op b s) := by
  apply OnlyReads.of <;> cases op <;> simp [aluOnA, State.setAddFlags,
      State.setSubFlags, State.setXorFlags, SameStorage]

theorem OnlyReads.znhc (s : State) (z n h c : Bool) : OnlyReads s (s.setZNHC z n h c) := .of ⟨rfl, rfl, rfl, rfl⟩ rfl

theorem OnlyReads.znh (s : State) (z n h : Bool) : OnlyReads s (s.setZNH z n h) := .of ⟨rfl, rfl, rfl, rfl⟩ rfl

/-! ## Adjacent addresses -/

/-- Two states that agree outside the registers give the same bytes. -/
theorem busRead_fst_of_sameOutside {s t : State} (h : SameOutside s t) (b : Word) :
    (busRead b t).1 = (busRead b s).1 := by
  refine busRead_fst_congr h.1 ?_ b
  rw [h.2, h.1.2.2.2]

theorem toNat_sub_one (x : Word) : (x - 1).toNat = (x.toNat + 65535) % 65536 := by
  rw [BitVec.toNat_sub]; show (65536 - 1 + x.toNat) % 65536 = _; omega

theorem toNat_sub_two (x : Word) : (x - 2).toNat = (x.toNat + 65534) % 65536 := by
  rw [BitVec.toNat_sub]; show (65536 - 2 + x.toNat) % 65536 = _; omega

/-- The address after an address of plain storage reaches another store. -/
theorem route_adjacent {s : State} {a b : Word} (hab : a.toNat = b.toNat + 1) (h2 : PlainStorage s b) :
    route s a ≠ route s b := by
  obtain ⟨h8, hn, hr⟩ := h2
  have ha := a.isLt
  intro he
  by_cases c1 : b.toNat ≤ 0x9FFF
  · rw [route_vram h8 c1] at he
    by_cases c2 : a.toNat ≤ 0x9FFF
    · rw [route_vram (by omega) c2] at he; simp at he; omega
    · rw [route_ext (by omega) (by omega)] at he
      unfold extStore at he
      split at he <;> [skip; split at he <;> [skip; (dsimp only at he; split at he)]] <;> cases he
  by_cases c2 : b.toNat ≤ 0xBFFF
  · rw [route_ext (by omega) c2] at he hn hr
    by_cases c3 : a.toNat ≤ 0xBFFF
    · rw [route_ext (by omega) c3] at he
      unfold extStore at he hn hr
      by_cases e : s.mbc.ramEnabled = false
      · rw [if_pos e] at hn; exact hn rfl
      · rw [if_neg e] at he hn hr
        rw [if_neg e] at he
        cases hw : rtcWindow s with
        | some r => rw [hw] at hr; exact hr r rfl
        | none =>
          rw [hw] at he hn
          dsimp only at he hn
          split at hn
          · rename_i hb
            rw [if_pos hb] at he
            split at he
            · simp at he; omega
            · cases he
          · exact hn rfl
    · rw [route_wram (by omega) (by omega)] at he
      unfold extStore at he
      split at he <;> [skip; split at he <;> [skip; (dsimp only at he; split at he)]] <;> cases he
  by_cases c3 : b.toNat ≤ 0xDFFF
  · rw [route_wram (by omega) c3] at he
    by_cases c4 : a.toNat ≤ 0xDFFF
    · rw [route_wram (by omega) c4] at he; simp at he; omega
    · rw [route_echo (by omega) (by omega)] at he; simp at he; omega
  by_cases c4 : b.toNat ≤ 0xFDFF
  · rw [route_echo (by omega) c4] at he
    by_cases c5 : a.toNat ≤ 0xFDFF
    · rw [route_echo (by omega) c5] at he; simp at he; omega
    · rw [route_oam (by omega) (by omega)] at he; cases he
  by_cases c5 : b.toNat ≤ 0xFE9F
  · rw [route_oam (by omega) c5] at he
    by_cases c6 : a.toNat ≤ 0xFE9F
    · rw [route_oam (by omega) c6] at he; simp at he; omega
    · rw [route_hole (by omega) (by omega)] at he; cases he
  by_cases c6 : b.toNat ≤ 0xFEFF
  · exact hn (route_hole (by omega) c6)
  by_cases c7 : b.toNat ≤ 0xFF7F
  · rw [route_io (by omega) c7] at he
    by_cases c8 : a.toNat ≤ 0xFF7F
    · rw [route_io (by omega) c8] at he; simp at he; omega
    · rw [route_hram (by omega) (by omega)] at he; cases he
  · rw [route_hram (s := s) (a := b) (by omega) (by omega)] at he
    by_cases c8 : a.toNat ≤ 0xFFFE
    · rw [route_hram (s := s) (a := a) (by omega) c8] at he; simp at he; omega
    · rw [route_ie (s := s) (a := a) (by omega)] at he; cases he

theorem route_stack_ne {s : State} (h1 : PlainStorage s (s.regs.sp - 1)) (h2 : PlainStorage s (s.regs.sp - 2)) :
    route s (s.regs.sp - 1) ≠ route s (s.regs.sp - 2) := by
  have a1 := toNat_sub_one s.regs.sp
  have a2 := toNat_sub_two s.regs.sp
  have b1 := h1.1; have b2 := h2.1
  have := s.regs.sp.isLt
  exact route_adjacent (by omega) h2

/-- The two bytes of a push, read back from plain storage. -/
theorem bytes_afterPush {s : State} (hl : s.Legal) (h1 : PlainStorage s (s.regs.sp - 1)) (h2 : PlainStorage s (s.regs.sp - 2))
    (hne : route s (s.regs.sp - 1) ≠ route s (s.regs.sp - 2)) (w : Word) :
    (busRead (s.regs.sp - 1) (afterPush w s)).1 = hiByte w ∧
        (busRead (s.regs.sp - 2) (afterPush w s)).1 = loByte w := by
  have r1 : ∀ b, route (busWrite (s.regs.sp - 1) (hiByte w) s) b = route s b := busWrite_route h1.1
  have hl2 := hl.busWrite (s.regs.sp - 1) (hiByte w)
  have h2' : PlainStorage (busWrite (s.regs.sp - 1) (hiByte w) s) (s.regs.sp - 2) := ⟨h2.1,
      by rw [r1]; exact h2.2.1, fun r => by rw [r1]; exact h2.2.2 r⟩
  constructor
  · unfold afterPush
    rw [busRead_busWrite_other h2.1 (by rw [r1, r1]; exact hne)]
    exact busRead_busWrite_same hl.ram h1
  · exact busRead_busWrite_same hl2.ram h2'

end Sys2Proof.Machine
end

