-- ==== Sys2Proof/Tests/Slice0.lean ====
section
/-! SUPPORT. The model's own tests: well-formedness, decoding of every row, single steps from the vectors of
spec/95_test_vectors.md (V<n>), and a witness for every statement that has hypotheses. Expected values are the spec's. -/

namespace Sys2Proof.Tests

open Sys2Proof Sys2Proof.Machine

/-! ## Helpers -/

/-- The baseline of 95_test_vectors.md with `bytes` at `pc`; the first sample of the clock is 0. -/
def benchAt (pc : Word) (bytes : List Byte) : State :=
  let s := State.reset.loadBytes pc bytes
  { s with regs.pc := pc, clock.samples := [0] }

/-- The same with `bytes` at the entry point. -/
def bench (bytes : List Byte) : State := benchAt 0x0100 bytes

/-- The reset state of a cartridge with 32 KiB of zero ROM. -/
def onCart (t : MbcType) (r : RamSize) : State :=
  State.newEngine { rom := [], romLen := 0x8000, mbcType := t, ramSize := r } [] 0

/-- The same with the external window enabled on a bank or a selector. -/
def window (t : MbcType) (r : RamSize) (bank : Byte) : State :=
  { onCart t r with mbc.ramEnabled := true, mbc.ramBank := bank }

/-- What `f` sees of the next state of a step. -/
def after {α : Type} (f : State → α) (s : State) : Option α :=
  match step s with
  | .next t => some (f t)
  | .fault _ | .refused _ => none

/-- What a Halted step carries. -/
def haltedWith (s : State) : Option (OpcodeTable × Byte × Word) :=
  match step s with
  | .fault (.unmappedOpcode table byte addr _) => some (table, byte, addr)
  | .next _ | .refused _ => none

/-- The bytes decode to the instruction, with nothing left. -/
def rowDecodes (p : List Byte × Instr) : Bool :=
  match decode p.1 with
  | .ok (i, rest) => decide (i = p.2) && rest.isEmpty
  | .error _ => false

/-- A legal state, by its four checks. -/
theorem legal_of {s : State} (h : s.regs.f &&& 0x0F = 0)
    (k : (s.mbc.legal s.cart.mbcType && s.ram.legal s.cart.ramSize.bytes && legalCartridge s.cart) = true) : s.Legal := by
  simp only [Bool.and_eq_true] at k
  exact ⟨h, k.1.1, k.1.2, k.2⟩

/-- A read is quiet where the store reached is known and is no RTC register. -/
theorem quiet_of {s : State} {a : Word} {st : Store} (h : route s a = st) (k : ∀ r, st ≠ .rtc r) : QuietRead s a :=
  fun r => h ▸ k r

/-! ## Well-formedness: the prefix row stands for unmapped pairs only (44_rotate_shift.md R235) -/

theorem test_wf_refuses_mapped_pairs :
    ([.prefix_CB 0x00, .prefix_CB 0x2F, .prefix_CB 0x38, .prefix_CB 0x3F] : List Instr).all (fun i => !i.wf) = true := by
  decide

theorem test_wf_accepts :
    ([.prefix_CB 0x30, .prefix_CB 0x37, .prefix_CB 0x40, .prefix_CB 0xFF, .nop, .rlc_B, .cp_d8 0xFF] : List Instr).all
      Instr.wf = true := by
  decide

/-! ## Decoding: every row's bytes, written out from 30_encoding.md R140 and R141 (operands low byte first, R130) -/

theorem test_decode_rows_1 : ([
    ([0x00], .nop), ([0x01, 0x34, 0x12], .ld_BC_d16 0x1234), ([0x04], .inc_B), ([0x05], .dec_B),
    ([0x06, 0x9C], .ld_B_d8 0x9C), ([0x07], .rlca), ([0x0C], .inc_C), ([0x0D], .dec_C),
    ([0x0E, 0x9C], .ld_C_d8 0x9C), ([0x0F], .rrca), ([0x11, 0x34, 0x12], .ld_DE_d16 0x1234), ([0x14], .inc_D),
    ([0x15], .dec_D), ([0x16, 0x9C], .ld_D_d8 0x9C), ([0x17], .rla), ([0x18, 0x9C], .jr_e8 0x9C), ([0x1C], .inc_E),
    ([0x1D], .dec_E), ([0x1E, 0x9C], .ld_E_d8 0x9C), ([0x1F], .rra), ([0x20, 0x9C], .jr_NZ_e8 0x9C),
    ([0x21, 0x34, 0x12], .ld_HL_d16 0x1234), ([0x24], .inc_H), ([0x25], .dec_H), ([0x26, 0x9C], .ld_H_d8 0x9C),
    ([0x28, 0x9C], .jr_Z_e8 0x9C), ([0x2C], .inc_L), ([0x2D], .dec_L)] :
    List (List Byte × Instr)).all rowDecodes = true := by decide

theorem test_decode_rows_2 : ([
    ([0x2E, 0x9C], .ld_L_d8 0x9C), ([0x2F], .cpl), ([0x30, 0x9C], .jr_NC_e8 0x9C),
    ([0x31, 0x34, 0x12], .ld_SP_d16 0x1234), ([0x34], .inc_mHL), ([0x35], .dec_mHL),
    ([0x36, 0x9C], .ld_mHL_d8 0x9C), ([0x38, 0x9C], .jr_C_e8 0x9C), ([0x3C], .inc_A), ([0x3D], .dec_A),
    ([0x3E, 0x9C], .ld_A_d8 0x9C), ([0x40], .ld_B_B), ([0x41], .ld_B_C), ([0x42], .ld_B_D), ([0x43], .ld_B_E),
    ([0x44], .ld_B_H), ([0x45], .ld_B_L), ([0x46], .ld_B_mHL), ([0x47], .ld_B_A), ([0x48], .ld_C_B),
    ([0x49], .ld_C_C), ([0x4A], .ld_C_D), ([0x4B], .ld_C_E), ([0x4C], .ld_C_H), ([0x4D], .ld_C_L),
    ([0x4E], .ld_C_mHL), ([0x4F], .ld_C_A), ([0x50], .ld_D_B)] :
    List (List Byte × Instr)).all rowDecodes = true := by decide

theorem test_decode_rows_3 : ([
    ([0x51], .ld_D_C), ([0x52], .ld_D_D), ([0x53], .ld_D_E), ([0x54], .ld_D_H), ([0x55], .ld_D_L),
    ([0x56], .ld_D_mHL), ([0x57], .ld_D_A), ([0x58], .ld_E_B), ([0x59], .ld_E_C), ([0x5A], .ld_E_D),
    ([0x5B], .ld_E_E), ([0x5C], .ld_E_H), ([0x5D], .ld_E_L), ([0x5E], .ld_E_mHL), ([0x5F], .ld_E_A),
    ([0x60], .ld_H_B), ([0x61], .ld_H_C), ([0x62], .ld_H_D), ([0x63], .ld_H_E), ([0x64], .ld_H_H),
    ([0x65], .ld_H_L), ([0x66], .ld_H_mHL), ([0x67], .ld_H_A), ([0x68], .ld_L_B), ([0x69], .ld_L_C),
    ([0x6A], .ld_L_D), ([0x6B], .ld_L_E), ([0x6C], .ld_L_H)] :
    List (List Byte × Instr)).all rowDecodes = true := by decide

theorem test_decode_rows_4 : ([
    ([0x6D], .ld_L_L), ([0x6E], .ld_L_mHL), ([0x6F], .ld_L_A), ([0x70], .ld_mHL_B), ([0x71], .ld_mHL_C),
    ([0x72], .ld_mHL_D), ([0x73], .ld_mHL_E), ([0x74], .ld_mHL_H), ([0x75], .ld_mHL_L), ([0x77], .ld_mHL_A),
    ([0x78], .ld_A_B), ([0x79], .ld_A_C), ([0x7A], .ld_A_D), ([0x7B], .ld_A_E), ([0x7C], .ld_A_H),
    ([0x7D], .ld_A_L), ([0x7E], .ld_A_mHL), ([0x7F], .ld_A_A), ([0x80], .add_A_B), ([0x81], .add_A_C),
    ([0x82], .add_A_D), ([0x83], .add_A_E), ([0x84], .add_A_H), ([0x85], .add_A_L), ([0x86], .add_A_mHL),
    ([0x87], .add_A_A), ([0x90], .sub_B), ([0x91], .sub_C)] :
    List (List Byte × Instr)).all rowDecodes = true := by decide

theorem test_decode_rows_5 : ([
    ([0x92], .sub_D), ([0x93], .sub_E), ([0x94], .sub_H), ([0x95], .sub_L), ([0x96], .sub_mHL), ([0x97], .sub_A),
    ([0xA8], .xor_B), ([0xA9], .xor_C), ([0xAA], .xor_D), ([0xAB], .xor_E), ([0xAC], .xor_H), ([0xAD], .xor_L),
    ([0xAE], .xor_mHL), ([0xAF], .xor_A), ([0xB8], .cp_B), ([0xB9], .cp_C), ([0xBA], .cp_D), ([0xBB], .cp_E),
    ([0xBC], .cp_H), ([0xBD], .cp_L), ([0xBE], .cp_mHL), ([0xBF], .cp_A), ([0xC1], .pop_BC),
    ([0xC3, 0x34, 0x12], .jp_a16 0x1234), ([0xC5], .push_BC), ([0xC6, 0x9C], .add_A_d8 0x9C), ([0xC7], .rst_0x00),
    ([0xC9], .ret)] :
    List (List Byte × Instr)).all rowDecodes = true := by decide

theorem test_decode_rows_6 : ([
    ([0xCB, 0x40], .prefix_CB 0x40), ([0xCD, 0x34, 0x12], .call_a16 0x1234), ([0xCF], .rst_0x08),
    ([0xD1], .pop_DE), ([0xD5], .push_DE), ([0xD6, 0x9C], .sub_d8 0x9C), ([0xD7], .rst_0x10), ([0xDF], .rst_0x18),
    ([0xE1], .pop_HL), ([0xE5], .push_HL), ([0xE7], .rst_0x20), ([0xEA, 0x34, 0x12], .ld_ma16_A 0x1234),
    ([0xEE, 0x9C], .xor_d8 0x9C), ([0xEF], .rst_0x28), ([0xF1], .pop_AF), ([0xF3], .di), ([0xF5], .push_AF),
    ([0xF7], .rst_0x30), ([0xFA, 0x34, 0x12], .ld_A_ma16 0x1234), ([0xFB], .ei), ([0xFE, 0x9C], .cp_d8 0x9C),
    ([0xFF], .rst_0x38), ([0xCB, 0x00], .rlc_B), ([0xCB, 0x01], .rlc_C), ([0xCB, 0x02], .rlc_D),
    ([0xCB, 0x03], .rlc_E), ([0xCB, 0x04], .rlc_H), ([0xCB, 0x05], .rlc_L)] :
    List (List Byte × Instr)).all rowDecodes = true := by decide

theorem test_decode_rows_7 : ([
    ([0xCB, 0x06], .rlc_mHL), ([0xCB, 0x07], .rlc_A), ([0xCB, 0x08], .rrc_B), ([0xCB, 0x09], .rrc_C),
    ([0xCB, 0x0A], .rrc_D), ([0xCB, 0x0B], .rrc_E), ([0xCB, 0x0C], .rrc_H), ([0xCB, 0x0D], .rrc_L),
    ([0xCB, 0x0E], .rrc_mHL), ([0xCB, 0x0F], .rrc_A), ([0xCB, 0x10], .rl_B), ([0xCB, 0x11], .rl_C),
    ([0xCB, 0x12], .rl_D), ([0xCB, 0x13], .rl_E), ([0xCB, 0x14], .rl_H), ([0xCB, 0x15], .rl_L),
    ([0xCB, 0x16], .rl_mHL), ([0xCB, 0x17], .rl_A), ([0xCB, 0x18], .rr_B), ([0xCB, 0x19], .rr_C),
    ([0xCB, 0x1A], .rr_D), ([0xCB, 0x1B], .rr_E), ([0xCB, 0x1C], .rr_H), ([0xCB, 0x1D], .rr_L),
    ([0xCB, 0x1E], .rr_mHL), ([0xCB, 0x1F], .rr_A), ([0xCB, 0x20], .sla_B), ([0xCB, 0x21], .sla_C)] :
    List (List Byte × Instr)).all rowDecodes = true := by decide

theorem test_decode_rows_8 : ([
    ([0xCB, 0x22], .sla_D), ([0xCB, 0x23], .sla_E), ([0xCB, 0x24], .sla_H), ([0xCB, 0x25], .sla_L),
    ([0xCB, 0x26], .sla_mHL), ([0xCB, 0x27], .sla_A), ([0xCB, 0x28], .sra_B), ([0xCB, 0x29], .sra_C),
    ([0xCB, 0x2A], .sra_D), ([0xCB, 0x2B], .sra_E), ([0xCB, 0x2C], .sra_H), ([0xCB, 0x2D], .sra_L),
    ([0xCB, 0x2E], .sra_mHL), ([0xCB, 0x2F], .sra_A), ([0xCB, 0x38], .srl_B), ([0xCB, 0x39], .srl_C),
    ([0xCB, 0x3A], .srl_D), ([0xCB, 0x3B], .srl_E), ([0xCB, 0x3C], .srl_H), ([0xCB, 0x3D], .srl_L),
    ([0xCB, 0x3E], .srl_mHL), ([0xCB, 0x3F], .srl_A)] :
    List (List Byte × Instr)).all rowDecodes = true := by decide

/-- Too few bytes are refused by name, the 94 and the 200 bytes without a meaning too. -/
theorem test_decode_refuses :
    (match decode [0xCD, 0x34], decode [0xCB], decode [0xD3, 0x00] with
     | .error .truncated, .error .truncated, .error (.unmappedPrimary b) => decide (b = 0xD3)
     | _, _, _ => false) = true := by decide

/-- The counts of 30_encoding.md R150 and R151. -/
theorem test_unmapped_counts :
    unmappedPrimary.length = 94 ∧ ((List.range 256).filter fun n => unmappedSecondary (BitVec.ofNat 8 n)).length = 200 := by
  decide +kernel

/-- The host's table words: a plain row, one with operand bytes of zero, a prefixed row, the prefix row (log 8, log 9). -/
theorem test_decodeTableWord :
    decodeTableWord 8 0x76 = none ∧ decodeTableWord 8 0x41 = some .ld_B_C ∧
    decodeTableWord 24 0x1234CD = some (.call_a16 0x1234) ∧ decodeTableWord 8 0xCD = some (.call_a16 0x0000) ∧
    decodeTableWord 16 0xCB3F = some .srl_A ∧ decodeTableWord 16 0x3FCB = some .srl_A ∧
    decodeTableWord 8 0xCB = some .rlc_B := by decide

/-- A placed word is what the very next step runs, also where the pc stands on an address that holds no code. -/
theorem test_withFetchWord :
    after (fun t => t.regs.pc) (State.reset.withFetchWord 24 0x1234C3) = some 0x1234 ∧
    after (fun t => t.regs.b) (State.withFetchWord { State.reset with regs.b := 0x81 } 16 0xCB38) = some 0x40 ∧
    after (fun t => t.regs.pc) (State.withFetchWord (State.reset.jump 0xFEA0) 24 0x1234C3) = some 0x1234 := by decide

/-! ## Single steps, from 95_test_vectors.md part 2 -/

theorem test_V2_NOP : after (fun t => t.regs.pc) (benchAt 0xFFFF [0x00]) = some 0x0000 := by decide
theorem test_V3_LD_B_C : after (fun t => t.regs.b) { bench [0x41] with regs.c := 0x9A } = some 0x9A := by decide
theorem test_V5_LD_L_H : after (fun t => t.regs.l)
    { bench [0x6C] with regs.h := 0xC1, regs.l := 0x23 } = some 0xC1 := by decide
theorem test_V6_LD_A_HL : after (fun t => t.regs.a)
    { (bench [0x7E]).loadByte 0xC000 0x42 with regs.h := 0xC0, regs.l := 0x00 } = some 0x42 := by decide
theorem test_V7_LD_H_HL : after (fun t => t.regs.h)
    { (bench [0x66]).loadByte 0xC000 0x42 with regs.h := 0xC0, regs.l := 0x00 } = some 0x42 := by decide
theorem test_V8_LD_B_HL : after (fun t => t.regs.b)
    { bench [0x46] with regs.h := 0xFE, regs.l := 0xA0 } = some 0xFF := by decide
theorem test_V10_LD_HL_A : after (fun t => (busRead 0xC123 t).1)
    { bench [0x77] with regs.h := 0xC1, regs.l := 0x23, regs.a := 0x5A } = some 0x5A := by decide
theorem test_V12_LD_HL_H : after (fun t => (busRead 0xC0C0 t).1)
    { bench [0x74] with regs.h := 0xC0, regs.l := 0xC0 } = some 0xC0 := by decide
theorem test_V15_LD_B_d8 : after (fun t => t.regs.b) (bench [0x06, 0x05]) = some 0x05 := by decide
theorem test_V18_LD_HL_d8 : after (fun t => (busRead 0xFF80 t).1)
    { bench [0x36, 0xAB] with regs.h := 0xFF, regs.l := 0x80 } = some 0xAB := by decide
theorem test_V19_LD_HL_d16 : after (fun t => t.regs.h) (bench [0x21, 0x00, 0x20]) = some 0x20 := by decide
theorem test_V20_LD_BC_d16 : after (fun t => (t.regs.b, t.regs.c))
    (bench [0x01, 0x34, 0x12]) = some (0x12, 0x34) := by decide
theorem test_V22_LD_SP_d16 : after (fun t => t.regs.sp) (bench [0x31, 0xFE, 0xFF]) = some 0xFFFE := by decide
theorem test_V23_LD_A_a16 : after (fun t => t.regs.a)
    { (bench [0xFA, 0x00, 0x40]).loadRom 0x8000 0x22 with cart.mbcType := .mbc5bit, mbc.romBank := 0x02 }
      = some 0x22 := by decide
theorem test_V26_LD_a16_A : after (fun t => (busRead 0xFFFF t).1)
    { bench [0xEA, 0xFF, 0xFF] with regs.a := 0x1F } = some 0x1F := by decide
theorem test_V28_JP_a16 : after (fun t => t.regs.pc) (bench [0xC3, 0x50, 0x01]) = some 0x0150 := by decide
theorem test_V30_CALL_a16 : after (fun t => (t.regs.pc, (busRead 0xCFFD t).1, (busRead 0xCFFC t).1))
    { benchAt 0x0107 [0xCD, 0x0D, 0x01] with regs.sp := 0xCFFE } = some (0x010D, 0x01, 0x0A) := by decide
theorem test_V32_CALL_a16 : after (fun t => (t.regs.pc, t.mbc.romBank, t.regs.sp))
    { bench [0xCD, 0x00, 0x02] with cart.mbcType := .mbc5bit, regs.sp := 0x4000 }
      = some (0x0200, 0x03, 0x3FFE) := by decide
theorem test_V33_RET : after (fun t => (t.regs.pc, t.regs.sp))
    { ((bench [0xC9]).loadByte 0xCFFC 0x0A).loadByte 0xCFFD 0x01 with regs.sp := 0xCFFC }
      = some (0x010A, 0xCFFE) := by decide
theorem test_V34_RET : after (fun t => (t.regs.pc, t.regs.sp))
    { bench [0xC9] with regs.sp := 0xFEA0 } = some (0xFFFF, 0xFEA2) := by decide
theorem test_V35_RST_0x28 : after (fun t => (t.regs.pc, (busRead 0xCFFF t).1, (busRead 0xCFFE t).1))
    { benchAt 0x0200 [0xEF] with regs.sp := 0xD000 } = some (0x0028, 0x02, 0x01) := by decide
theorem test_V37_RST_0x38 : after (fun t => (t.regs.pc, (busRead 0xCFFF t).1, (busRead 0xCFFE t).1))
    { benchAt 0x7FFF [0xFF] with regs.sp := 0xD000 } = some (0x0038, 0x80, 0x00) := by decide
theorem test_V38_JR_e8 : after (fun t => t.regs.pc) (bench [0x18, 0x80]) = some 0x0082 := by decide
theorem test_V39_JR_e8 : after (fun t => t.regs.pc) (bench [0x18, 0x7F]) = some 0x0181 := by decide
theorem test_V43_JR_NZ_e8 : after (fun t => t.regs.pc)
    { benchAt 0x0105 [0x20, 0xFC] with regs.f := 0x00 } = some 0x0103 := by decide
theorem test_V44_JR_NZ_e8 : after (fun t => t.regs.pc)
    { benchAt 0x0105 [0x20, 0xFC] with regs.f := 0x80 } = some 0x0107 := by decide
theorem test_V45_JR_Z_e8 : after (fun t => t.regs.pc)
    { bench [0x28, 0x10] with regs.f := 0x80 } = some 0x0112 := by decide
theorem test_V46_JR_Z_e8 : after (fun t => t.regs.pc)
    { bench [0x28, 0x10] with regs.f := 0x70 } = some 0x0102 := by decide
theorem test_V47_JR_NC_e8 : after (fun t => t.regs.pc)
    { bench [0x30, 0x10] with regs.f := 0x00 } = some 0x0112 := by decide
theorem test_V48_JR_NC_e8 : after (fun t => t.regs.pc)
    { bench [0x30, 0x10] with regs.f := 0x10 } = some 0x0102 := by decide
theorem test_V49_JR_C_e8 : after (fun t => t.regs.pc)
    { bench [0x38, 0x10] with regs.f := 0x10 } = some 0x0112 := by decide
theorem test_V50_JR_C_e8 : after (fun t => t.regs.pc)
    { bench [0x38, 0x10] with regs.f := 0xE0 } = some 0x0102 := by decide
theorem test_V51_PUSH_BC : after (fun t => ((busRead 0xCFFF t).1, (busRead 0xCFFE t).1))
    { bench [0xC5] with regs.b := 0x12, regs.c := 0x34, regs.sp := 0xD000 } = some (0x12, 0x34) := by decide
theorem test_V53_PUSH_HL : after (fun t => ((busRead 0xFFFF t).1, t.regs.sp))
    { bench [0xE5] with cart.mbcType := .mbc5bit, regs.h := 0xA5, regs.l := 0x5A, regs.sp := 0x0001 }
      = some (0x5A, 0xFFFF) := by decide
theorem test_V55_PUSH_AF : after (fun t => ((busRead 0xCFFF t).1, (busRead 0xCFFE t).1))
    { bench [0xF5] with regs.a := 0x3C, regs.f := 0xB0, regs.sp := 0xD000 } = some (0x3C, 0xB0) := by decide
theorem test_V56_POP_AF : after (fun t => (t.regs.a, t.regs.f))
    { ((bench [0xF1]).loadByte 0xCFFE 0x5F).loadByte 0xCFFF 0x9A with regs.sp := 0xCFFE }
      = some (0x9A, 0x50) := by decide
theorem test_V58_POP_DE : after (fun t => (t.regs.d, t.regs.e))
    { ((bench [0xD1]).loadByte 0xCFFE 0x34).loadByte 0xCFFF 0x12 with regs.sp := 0xCFFE }
      = some (0x12, 0x34) := by decide
theorem test_V59_POP_HL : after (fun t => (t.regs.h, t.regs.l))
    { ((bench [0xE1]).loadRom 0x0000 0x99).loadByte 0xFFFF 0x77 with regs.sp := 0xFFFF }
      = some (0x99, 0x77) := by decide
theorem test_V63_INC_B : after (fun t => (t.regs.f, t.regs.b))
    { bench [0x04] with regs.b := 0x0F, regs.f := 0xF0 } = some (0x30, 0x10) := by decide
theorem test_V67_INC_B : after (fun t => (t.regs.f, t.regs.b))
    { bench [0x04] with regs.b := 0xFF, regs.f := 0xF0 } = some (0xB0, 0x00) := by decide
theorem test_V70_INC_HL : after (fun t => (t.regs.f, (busRead 0xC010 t).1))
    { (bench [0x34]).loadByte 0xC010 0xFF with regs.h := 0xC0, regs.l := 0x10, regs.f := 0x10 }
      = some (0xB0, 0x00) := by decide
theorem test_V73_INC_HL : after (fun t => t.regs.f)
    { bench [0x34] with regs.h := 0xFE, regs.l := 0xA0 } = some 0xA0 := by decide
theorem test_V76_DEC_B : after (fun t => (t.regs.f, t.regs.b))
    { bench [0x05] with regs.b := 0x01, regs.f := 0xF0 } = some (0xD0, 0x00) := by decide
theorem test_V78_DEC_B : after (fun t => (t.regs.f, t.regs.b))
    { bench [0x05] with regs.b := 0x0F, regs.f := 0x10 } = some (0x50, 0x0E) := by decide
theorem test_V82_DEC_HL : after (fun t => (t.regs.f, (busRead 0xC010 t).1))
    { (bench [0x35]).loadByte 0xC010 0x00 with regs.h := 0xC0, regs.l := 0x10, regs.f := 0x10 }
      = some (0x70, 0xFF) := by decide
theorem test_V83_DEC_HL : after (fun t => (t.regs.f, (busRead 0xC010 t).1))
    { (bench [0x35]).loadByte 0xC010 0x01 with regs.h := 0xC0, regs.l := 0x10, regs.f := 0x00 }
      = some (0xC0, 0x00) := by decide
theorem test_V86_ADD_A_B : after (fun t => (t.regs.a, t.regs.f))
    { bench [0x80] with regs.a := 0xFF, regs.b := 0x01, regs.f := 0xF0 } = some (0x00, 0xB0) := by decide
theorem test_V89_ADD_A_B : after (fun t => (t.regs.a, t.regs.f))
    { bench [0x80] with regs.a := 0xF0, regs.b := 0x0F, regs.f := 0xF0 } = some (0xFF, 0x00) := by decide
theorem test_V93_ADD_A_HL : after (fun t => (t.regs.a, t.regs.f))
    { (bench [0x86]).loadByte 0xC000 0xFF with regs.a := 0x01, regs.h := 0xC0, regs.l := 0x00 }
      = some (0x00, 0xB0) := by decide
theorem test_V94_ADD_A_d8 : after (fun t => (t.regs.a, t.regs.f))
    { bench [0xC6, 0x01] with regs.a := 0xFF } = some (0x00, 0xB0) := by decide
theorem test_V99_SUB_B : after (fun t => (t.regs.a, t.regs.f))
    { bench [0x90] with regs.a := 0x00, regs.b := 0x01, regs.f := 0x00 } = some (0xFF, 0x70) := by decide
theorem test_V103_SUB_B : after (fun t => (t.regs.a, t.regs.f))
    { bench [0x90] with regs.a := 0xFF, regs.b := 0x0F, regs.f := 0x00 } = some (0xF0, 0x40) := by decide
theorem test_V105_SUB_HL : after (fun t => (t.regs.a, t.regs.f))
    { (bench [0x96]).loadByte 0xC000 0x20 with regs.a := 0x10, regs.h := 0xC0, regs.l := 0x00 }
      = some (0xF0, 0x50) := by decide
theorem test_V106_SUB_d8 : after (fun t => (t.regs.a, t.regs.f))
    { bench [0xD6, 0x01] with regs.a := 0x00 } = some (0xFF, 0x70) := by decide
theorem test_V109_CP_B : after (fun t => t.regs.f)
    { bench [0xB8] with regs.a := 0x3C, regs.b := 0x40, regs.f := 0x00 } = some 0x50 := by decide
theorem test_V110_CP_B : after (fun t => t.regs.f)
    { bench [0xB8] with regs.a := 0x00, regs.b := 0xFF, regs.f := 0x00 } = some 0x70 := by decide
theorem test_V113_CP_HL : after (fun t => t.regs.f)
    { (bench [0xBE]).loadByte 0xC000 0x42 with regs.a := 0x42, regs.h := 0xC0, regs.l := 0x00 }
      = some 0xC0 := by decide
theorem test_V115_CP_d8 : after (fun t => t.regs.f)
    { bench [0xFE, 0x90] with regs.a := 0x8F } = some 0x50 := by decide
theorem test_V116_XOR_B : after (fun t => (t.regs.a, t.regs.f))
    { bench [0xA8] with regs.a := 0xFF, regs.b := 0xFF, regs.f := 0xF0 } = some (0x00, 0x80) := by decide
theorem test_V119_XOR_B : after (fun t => (t.regs.a, t.regs.f))
    { bench [0xA8] with regs.a := 0x5A, regs.b := 0xA5, regs.f := 0x10 } = some (0xFF, 0x00) := by decide
theorem test_V121_XOR_HL : after (fun t => t.regs.a)
    { (bench [0xAE]).loadByte 0xC000 0xF0 with regs.a := 0x0F, regs.h := 0xC0, regs.l := 0x00 }
      = some 0xFF := by decide
theorem test_V122_XOR_d8 : after (fun t => (t.regs.a, t.regs.f))
    { bench [0xEE, 0xFF] with regs.a := 0x0F, regs.f := 0xF0 } = some (0xF0, 0x00) := by decide
theorem test_V124_CPL : after (fun t => (t.regs.a, t.regs.f))
    { bench [0x2F] with regs.a := 0xFF, regs.f := 0x90 } = some (0x00, 0xF0) := by decide
theorem test_V125_CPL : after (fun t => (t.regs.a, t.regs.f))
    { bench [0x2F] with regs.a := 0x35, regs.f := 0xF0 } = some (0xCA, 0xF0) := by decide
theorem test_V127_RLCA : after (fun t => t.regs.f)
    { bench [0x07] with regs.a := 0x00, regs.f := 0x00 } = some 0x80 := by decide
theorem test_V128_RLCA : after (fun t => (t.regs.a, t.regs.f))
    { bench [0x07] with regs.a := 0x80, regs.f := 0x00 } = some (0x01, 0x10) := by decide
theorem test_V133_RRCA : after (fun t => t.regs.f)
    { bench [0x0F] with regs.a := 0x00, regs.f := 0x00 } = some 0x80 := by decide
theorem test_V135_RRCA : after (fun t => (t.regs.a, t.regs.f))
    { bench [0x0F] with regs.a := 0x01, regs.f := 0x00 } = some (0x80, 0x10) := by decide
theorem test_V140_RLA : after (fun t => (t.regs.a, t.regs.f))
    { bench [0x17] with regs.a := 0x80, regs.f := 0x00 } = some (0x00, 0x90) := by decide
theorem test_V142_RLA : after (fun t => (t.regs.a, t.regs.f))
    { bench [0x17] with regs.a := 0x00, regs.f := 0x10 } = some (0x01, 0x00) := by decide
theorem test_V147_RRA : after (fun t => (t.regs.a, t.regs.f))
    { bench [0x1F] with regs.a := 0x01, regs.f := 0x00 } = some (0x00, 0x90) := by decide
theorem test_V148_RRA : after (fun t => (t.regs.a, t.regs.f))
    { bench [0x1F] with regs.a := 0x00, regs.f := 0x10 } = some (0x80, 0x00) := by decide
theorem test_V152_RLC_B : after (fun t => (t.regs.f, t.regs.b))
    { bench [0xCB, 0x00] with regs.b := 0x01, regs.f := 0x10 } = some (0x00, 0x02) := by decide
theorem test_V153_RLC_B : after (fun t => t.regs.f)
    { bench [0xCB, 0x00] with regs.b := 0x00, regs.f := 0x10 } = some 0x80 := by decide
theorem test_V157_RRC_B : after (fun t => (t.regs.b, t.regs.f))
    { bench [0xCB, 0x08] with regs.b := 0x01, regs.f := 0x10 } = some (0x80, 0x10) := by decide
theorem test_V158_RRC_B : after (fun t => t.regs.f)
    { bench [0xCB, 0x08] with regs.b := 0x00, regs.f := 0x10 } = some 0x80 := by decide
theorem test_V161_RL_B : after (fun t => (t.regs.f, t.regs.b))
    { bench [0xCB, 0x10] with regs.b := 0x80, regs.f := 0x00 } = some (0x90, 0x00) := by decide
theorem test_V162_RL_B : after (fun t => (t.regs.f, t.regs.b))
    { bench [0xCB, 0x10] with regs.b := 0x01, regs.f := 0x10 } = some (0x00, 0x03) := by decide
theorem test_V167_RR_B : after (fun t => (t.regs.b, t.regs.f))
    { bench [0xCB, 0x18] with regs.b := 0x01, regs.f := 0x10 } = some (0x80, 0x10) := by decide
theorem test_V168_RR_B : after (fun t => (t.regs.f, t.regs.b))
    { bench [0xCB, 0x18] with regs.b := 0x00, regs.f := 0x10 } = some (0x00, 0x80) := by decide
theorem test_V171_SLA_B : after (fun t => (t.regs.f, t.regs.b))
    { bench [0xCB, 0x20] with regs.b := 0x80, regs.f := 0x00 } = some (0x90, 0x00) := by decide
theorem test_V174_SLA_B : after (fun t => (t.regs.f, t.regs.b))
    { bench [0xCB, 0x20] with regs.b := 0xFF, regs.f := 0x00 } = some (0x10, 0xFE) := by decide
theorem test_V176_SRA_B : after (fun t => (t.regs.b, t.regs.f))
    { bench [0xCB, 0x28] with regs.b := 0x80, regs.f := 0x00 } = some (0xC0, 0x00) := by decide
theorem test_V177_SRA_B : after (fun t => (t.regs.f, t.regs.b))
    { bench [0xCB, 0x28] with regs.b := 0x01, regs.f := 0x10 } = some (0x90, 0x00) := by decide
theorem test_V181_SRL_B : after (fun t => (t.regs.b, t.regs.f))
    { bench [0xCB, 0x38] with regs.b := 0x80, regs.f := 0x00 } = some (0x40, 0x00) := by decide
theorem test_V182_SRL_B : after (fun t => (t.regs.f, t.regs.b))
    { bench [0xCB, 0x38] with regs.b := 0x01, regs.f := 0x10 } = some (0x90, 0x00) := by decide
theorem test_V186_RLC_HL : after (fun t => (t.regs.f, (busRead 0xC000 t).1))
    { (bench [0xCB, 0x06]).loadByte 0xC000 0x81 with regs.h := 0xC0, regs.l := 0x00 } = some (0x10, 0x03) := by decide
theorem test_V187_RRC_HL : after (fun t => (t.regs.f, (busRead 0xC000 t).1))
    { (bench [0xCB, 0x0E]).loadByte 0xC000 0x01 with regs.h := 0xC0, regs.l := 0x00 } = some (0x10, 0x80) := by decide
theorem test_V188_RL_HL : after (fun t => ((busRead 0xC000 t).1, t.regs.f))
    { (bench [0xCB, 0x16]).loadByte 0xC000 0x80 with regs.h := 0xC0, regs.l := 0x00, regs.f := 0x10 }
      = some (0x01, 0x10) := by decide
theorem test_V189_RR_HL : after (fun t => (t.regs.f, (busRead 0xC000 t).1))
    { (bench [0xCB, 0x1E]).loadByte 0xC000 0x01 with regs.h := 0xC0, regs.l := 0x00, regs.f := 0x00 }
      = some (0x90, 0x00) := by decide
theorem test_V190_SLA_HL : after (fun t => (t.regs.f, (busRead 0xC000 t).1))
    { (bench [0xCB, 0x26]).loadByte 0xC000 0xC0 with regs.h := 0xC0, regs.l := 0x00 } = some (0x10, 0x80) := by decide
theorem test_V191_SRA_HL : after (fun t => (t.regs.f, (busRead 0xC000 t).1))
    { (bench [0xCB, 0x2E]).loadByte 0xC000 0x81 with regs.h := 0xC0, regs.l := 0x00 } = some (0x10, 0xC0) := by decide
theorem test_V192_SRL_HL : after (fun t => (t.regs.f, (busRead 0xC000 t).1))
    { (bench [0xCB, 0x3E]).loadByte 0xC000 0x81 with regs.h := 0xC0, regs.l := 0x00 } = some (0x10, 0x40) := by decide
theorem test_V195_DI : after (fun t => t.regs.ime) { bench [0xF3] with regs.ime := true } = some false := by decide
theorem test_V197_EI : after (fun t => t.regs.ime) (bench [0xFB]) = some true := by decide

/-- T7: from reset over zeros a step is NOP. -/
theorem test_T7_reset_step : after (fun t => (t.regs.pc, t.regs.a, t.regs.f, t.regs.sp)) State.reset
    = some (0x0101, 0x00, 0x00, 0x0000) := by decide

theorem test_V199_halted : haltedWith (bench [0xD3]) = some (.primary, 0xD3, 0x0100) := by decide
theorem test_V206_halted : haltedWith (bench [0xCB, 0x30]) = some (.secondary, 0x30, 0x0100) := by decide
theorem test_V210_halted : haltedWith (bench [0xCB, 0xCB]) = some (.secondary, 0xCB, 0x0100) := by decide

/-! ## The bus, from the vectors of R60 to R83, R306 and R307, on the operations -/

theorem test_V212_to_217_ram_enable :
    [(0x0A, true), (0x1A, true), (0xFA, true), (0x00, false), (0x0B, false), (0xA0, false)].all
      (fun p => decide ((busWrite 0x0000 p.1 (onCart .mbc5bit .none)).mbc.ramEnabled = p.2)) = true := by decide

theorem test_V220_to_236_rom_bank :
    ([(.mbc5bit, 0x00, 0x01), (.mbc5bit, 0x1F, 0x1F), (.mbc5bit, 0x20, 0x01), (.mbc5bit, 0x21, 0x01), (.mbc5bit, 0xFF, 0x1F),
      (.mbc7bitRtc, 0x00, 0x00), (.mbc7bitRtc, 0x80, 0x00), (.mbc7bitRtc, 0xFF, 0x7F), (.mbc8bit, 0x00, 0x00),
      (.mbc8bit, 0xFF, 0xFF)] : List (MbcType × Byte × Byte)).all
      (fun p => decide ((busWrite 0x2000 p.2.1 (onCart p.1 .none)).mbc.romBank = p.2.2)) = true := by decide

theorem test_V237_to_250_ram_bank :
    ([(.mbc7bitRtc, 0x04, 0x00), (.mbc7bitRtc, 0x07, 0x03), (.mbc7bitRtc, 0x08, 0x08), (.mbc7bitRtc, 0x0C, 0x0C),
      (.mbc7bitRtc, 0x0D, 0x01), (.mbc7bitRtc, 0x18, 0x00), (.mbc5bit, 0x08, 0x00), (.mbc5bit, 0xFF, 0x03),
      (.mbc8bit, 0x0A, 0x02)] : List (MbcType × Byte × Byte)).all
      (fun p => decide ((busWrite 0x5FFF p.2.1 (onCart p.1 .none)).mbc.ramBank = p.2.2)) = true := by decide

theorem test_V251_latch : (busWrite 0x6000 0x01
    { onCart .mbc7bitRtc .none with rtc.s := 0x32, clock.now := 15 }).rtc
      = { s := 0x05, m := 0x01, h := 0x00, dl := 0x00, dh := 0x00, latched := true, last := 15 } := by decide

theorem test_V257_external_ram :
    (busRead 0xB234 (busWrite 0xB234 0x66 (window .mbc5bit .kib32 0x01))).1 = 0x66 ∧
    (busWrite 0xB234 0x66 (window .mbc5bit .kib32 0x01)).ram.eram = [(0x3234, 0x66)] := by decide

theorem test_V260_bank_out_of_range : (busRead 0xA000 (window .mbc8bit .kib8 0x01)).1 = 0xFF := by decide

theorem test_V264_last_echo_byte : (busWrite 0xFDFF 0x42 State.reset).ram.wram = [(0x1DFF, 0x42)] := by decide

theorem test_V275_rtc_hours : (busRead 0xBFFF { window .mbc7bitRtc .none 0x0A with clock.now := 10805 }).1 = 0x03 := by
  decide

theorem test_V277_rtc_overflow : (busRead 0xA000
    { window .mbc7bitRtc .none 0x0C with clock.now := 86400, rtc.dl := 0xFF, rtc.dh := 0x01 }).1 = 0x80 := by decide

theorem test_V291_rtc_write : (busWrite 0xA000 0xFF (window .mbc7bitRtc .none 0x0C)).rtc.dh = 0xFF := by decide

/-! ## Witnesses: what meets the hypotheses of each statement -/

/-- `s` is one that the legal-state statements speak of, for each controller type, at the ends of the register ranges. -/
theorem test_witness_Legal : State.reset.Legal ∧
    State.Legal { onCart .mbc5bit .kib32 with mbc.romBank := 31, mbc.ramBank := 3, regs.f := 0xF0 } ∧
    State.Legal { onCart .mbc7bitRtc .kib32 with mbc.romBank := 0, mbc.ramBank := 0x08 } ∧
    State.Legal { onCart .mbc7bitRtc .kib2 with mbc.romBank := 127, mbc.ramBank := 0x0C } ∧
    State.Legal { onCart .mbc8bit .kib128 with mbc.romBank := 0xFF, ram.eram := [(131071, 0x01)] } :=
  ⟨legal_of (by decide) (by decide), legal_of (by decide) (by decide), legal_of (by decide) (by decide),
    legal_of (by decide) (by decide), legal_of (by decide) (by decide)⟩

theorem test_legal_refuses :
    Mbc.legal .mbc5bit { ramEnabled := true, romBank := 0, ramBank := 0, mode := false } = false ∧
    Mbc.legal .mbc7bitRtc { ramEnabled := true, romBank := 1, ramBank := 0x0D, mode := false } = false ∧
    legalCartridge { rom := [], romLen := 0x14F, mbcType := .romOnly, ramSize := .none } = false ∧
    Ram.legal 0 { State.reset.ram with vram := [(0x2000, 0x01)] } = false ∧
    Ram.legal 0 { State.reset.ram with vram := [(0x0001, 0x00)] } = false := by decide

theorem test_witness_DecodeOfEncode : Instr.wf (.prefix_CB 0xFF) = true ∧ Instr.wf (.ld_ma16_A 0xFFFF) = true := by decide

theorem test_witness_EncodeOfDecode :
    decode [0xCB, 0x30, 0x11] = .ok (.prefix_CB 0x30, [0x11]) ∧ decode [0xEA, 0xFF, 0x00] = .ok (.ld_ma16_A 0x00FF, []) :=
  ⟨rfl, rfl⟩

/-- Both outcomes at the ends of the ranges of R150 and R151. -/
theorem test_witness_UnmappedBytes :
    decode [0x02] = .error (.unmappedPrimary 0x02) ∧ decode [0xFD] = .error (.unmappedPrimary 0xFD) ∧
    decode [0xCB, 0x2F] = .ok (.sra_A, []) ∧ decode [0xCB, 0x30] = .ok (.prefix_CB 0x30, []) ∧
    decode [0xCB, 0x37] = .ok (.prefix_CB 0x37, []) ∧ decode [0xCB, 0x38] = .ok (.srl_B, []) ∧
    decode [0xCB, 0x3F] = .ok (.srl_A, []) ∧ decode [0xCB, 0x40] = .ok (.prefix_CB 0x40, []) ∧
    decode [0xCB, 0xFF] = .ok (.prefix_CB 0xFF, []) := ⟨rfl, rfl, rfl, rfl, rfl, rfl, rfl, rfl, rfl⟩

theorem test_witness_FirstByteDecidesLength :
    decode (0xCD :: [0x34, 0x12, 0x56]) = .ok (.call_a16 0x1234, [0x56]) ∧
    (0xCD : Byte).toNat ∉ unmappedPrimary ∧ ([0x34, 0x12] : List Byte).length + 1 = fetchLength 0xCD ∧
    (0x00 : Byte).toNat ∉ unmappedPrimary ∧ ([] : List Byte).length + 1 = fetchLength 0x00 :=
  ⟨rfl, by decide, by decide, by decide, by decide⟩

theorem test_witness_StepRunsDecodedInstruction :
    decode (fetch State.reset.takeSample).1 = .ok (.nop, []) ∧
    decode (fetch (bench [0xCB, 0x30]).takeSample).1 = .ok (.prefix_CB 0x30, []) := ⟨rfl, rfl⟩

/-- Three bytes whose addresses wrap: HRAM, IE, ROM (95_test_vectors.md V2's corner). -/
theorem test_witness_StepRunsEncodedInstruction :
    let s := benchAt 0xFFFE [0xC3, 0x34, 0x12]
    (∀ k b, (encode (.jp_a16 0x1234))[k]? = some b →
      QuietRead s (s.regs.pc + BitVec.ofNat 16 k) ∧ (busRead (s.regs.pc + BitVec.ofNat 16 k) s).1 = b) ∧
    after (fun t => t.regs.pc) s = some 0x1234 := by
  refine ⟨fun k b h => ?_, by decide⟩
  match k with
  | 0 => exact ⟨quiet_of (st := .hram 0x7E) (by decide) (by simp), by simp [encode, encode16] at h; subst h; decide⟩
  | 1 => exact ⟨quiet_of (st := .ie) (by decide) (by simp), by simp [encode, encode16] at h; subst h; decide⟩
  | 2 => exact ⟨quiet_of (st := .rom 0) (by decide) (by simp), by simp [encode, encode16] at h; subst h; decide⟩
  | n + 3 => simp [encode, encode16] at h

theorem test_witness_UnmappedPrimaryHalts :
    (busRead (bench [0xD3]).regs.pc (bench [0xD3]).takeSample).1 = 0xD3 ∧ (0xD3 : Byte).toNat ∈ unmappedPrimary ∧
    QuietRead (bench [0xD3]) (bench [0xD3]).regs.pc :=
  ⟨by decide, by decide, quiet_of (st := .rom 0x100) (by decide) (by simp)⟩

theorem test_witness_UnmappedSecondaryHalts :
    let s := bench [0xCB, 0x30]
    busRead s.regs.pc s.takeSample = (0xCB, s.takeSample) ∧
    busRead (s.regs.pc + 1) s.takeSample = (0x30, s.takeSample) ∧ unmappedSecondary 0x30 = true ∧
    QuietRead s s.regs.pc ∧ QuietRead s (s.regs.pc + 1) :=
  ⟨by decide, by decide, by decide, quiet_of (st := .rom 0x100) (by decide) (by simp),
    quiet_of (st := .rom 0x101) (by decide) (by simp)⟩

/-- Each clause: an unmapped first byte, an unmapped pair, a mapped pair, a mapped byte. -/
theorem test_witness_StepStopsOnlyOnUnmapped :
    (busRead 0x0100 (bench [0xD3, 0x00]).takeSample).1.toNat ∈ unmappedPrimary ∧
    (busRead 0x0100 (bench [0xCB, 0xFF]).takeSample).1 = 0xCB ∧ unmappedSecondary 0xFF = true ∧
    (busRead 0x0101 (bench [0xCB, 0xFF]).takeSample).1 = 0xFF ∧
    (busRead 0x0100 (bench [0xCB, 0x3F]).takeSample).1.toNat ∉ unmappedPrimary ∧ unmappedSecondary 0x3F = false ∧
    (busRead 0x0101 (bench [0xCB, 0x3F]).takeSample).1 = 0x3F ∧
    (busRead 0x0100 (bench [0x00]).takeSample).1.toNat ∉ unmappedPrimary := by decide

theorem test_witness_HaltedAgain :
    ∃ t, step (bench [0xD3]) = .fault (.unmappedOpcode .primary 0xD3 0x0100 t) ∧ QuietRead (bench [0xD3]) 0x0100 ∧
      QuietRead (bench [0xD3]) 0x0101 :=
  ⟨_, rfl, quiet_of (st := .rom 0x100) (by decide) (by simp), quiet_of (st := .rom 0x101) (by decide) (by simp)⟩

theorem test_witness_SequentialPc :
    (∃ t, exec (.ld_SP_d16 0x1234) State.reset = .next t) ∧ ¬ Branches (.ld_SP_d16 0x1234) := by
  refine ⟨⟨_, rfl⟩, ?_⟩
  rintro (⟨_, h⟩ | ⟨_, h⟩ | h | ⟨y, h⟩ | ⟨_, h⟩ | ⟨cc, _, h⟩)
  case inr.inr.inr.inl => revert h; revert y; decide
  case inr.inr.inr.inr.inr => cases cc <;> cases h
  all_goals cases h

theorem test_witness_ResetRegisters : State.reset = State.newEngine Config.cartridge [] 0 := rfl

/-- The smallest legal image, and an I/O image with its last byte set. -/
theorem test_witness_ResetIsLegal :
    legalCartridge { rom := [(0x14F, 0x01)], romLen := 0x150, mbcType := .mbc7bitRtc, ramSize := .kib128 } = true ∧
    legalCartridge Config.cartridge = true ∧ Memory.wf 0x80 [(0x00, 0xCF), (0x7F, 0x01)] = true ∧
    Memory.wf 0x80 Config.ioReset = true := by decide

/-- Both clauses: a step that goes on and a step that is Halted, from a legal state. -/
theorem test_witness_StepKeepsLegal : (bench [0xF1]).Legal ∧ (∃ t, step (bench [0xF1]) = .next t) ∧ (bench [0xD3]).Legal ∧
    ∃ t, step (bench [0xD3]) = .fault (.unmappedOpcode .primary 0xD3 0x0100 t) :=
  ⟨legal_of (by decide) (by decide), ⟨_, rfl⟩, legal_of (by decide) (by decide), ⟨_, rfl⟩⟩

/-- With a queued sample and with none. -/
theorem test_witness_StepKeepsCartridgeTakesOneSample :
    (∃ t, step (bench [0x00]) = .next t) ∧ (bench [0x00]).clock.samples = [0] ∧
    (∃ t, step State.reset = .next t) ∧ State.reset.clock.samples = [] := ⟨⟨_, rfl⟩, rfl, ⟨_, rfl⟩, rfl⟩

theorem test_witness_OnlyFlagInstructionsChangeF :
    (∃ t, exec (.ld_A_d8 0xFF) State.reset = .next t) ∧ ¬ WritesFlags (.ld_A_d8 0xFF) := by
  refine ⟨⟨_, rfl⟩, ?_⟩
  rintro (⟨o, h⟩ | ⟨o, h⟩ | ⟨op, o, h⟩ | ⟨op, n, h⟩ | h | ⟨k, h⟩ | ⟨k, o, h⟩ | ⟨n, h⟩ | h)
  case inl => rcases o with r | _ <;> [cases r <;> cases h; cases h]
  case inr.inl => rcases o with r | _ <;> [cases r <;> cases h; cases h]
  case inr.inr.inl => cases op <;> (rcases o with r | _ <;> [cases r <;> cases h; cases h])
  case inr.inr.inr.inl => cases op <;> cases h
  case inr.inr.inr.inr.inr.inl => cases k <;> cases h
  case inr.inr.inr.inr.inr.inr.inl => cases k <;> (rcases o with r | _ <;> [cases r <;> cases h; cases h])
  all_goals cases h

/-- Each way of moving `SP`. -/
theorem test_witness_OnlyStackInstructionsMoveSP :
    (∃ t, exec (.ld_SP_d16 0xFFFE) State.reset = .next t) ∧ (∃ t, exec .push_AF State.reset = .next t) ∧
    (∃ t, exec .pop_AF State.reset = .next t) ∧ ∃ t, exec .nop State.reset = .next t :=
  ⟨⟨_, rfl⟩, ⟨_, rfl⟩, ⟨_, rfl⟩, ⟨_, rfl⟩⟩

theorem test_witness_ImeIsStorageOnly :
    (∃ t, exec .nop (State.reset.setIME true) = .next t) ∧ (.nop : Instr) ≠ .di ∧ (.nop : Instr) ≠ .ei :=
  ⟨⟨_, rfl⟩, by decide, by decide⟩

/-- A read of RAM, and one that refreshes the clock. -/
theorem test_witness_LoadFromHL :
    (∃ s1, busRead (bench [0x7E]).hl (bench [0x7E]) = (0x00, s1)) ∧
    ∃ s1, busRead (State.hl { window .mbc7bitRtc .none 0x08 with regs.h := 0xA0, clock.now := 75 })
      { window .mbc7bitRtc .none 0x08 with regs.h := 0xA0, clock.now := 75 } = (0x0F, s1) ∧ s1.rtc.m = 0x01 :=
  ⟨⟨_, rfl⟩, ⟨_, rfl, rfl⟩⟩

theorem test_witness_AbsoluteLoadAndStore :
    (∃ s1, busRead 0x0000 State.reset = (0x00, s1)) ∧ ∃ s1, busRead 0xFEA0 State.reset = (0xFF, s1) :=
  ⟨⟨_, rfl⟩, ⟨_, rfl⟩⟩

/-- A pop whose addresses wrap from IE to ROM: for `RetPops`, `PopLoadsPair`, `PopAFMasksFlags` and `BranchTargets`. -/
theorem test_witness_PopReads :
    ∃ s2, PopReads { (State.reset.loadByte 0xFFFF 0x77).loadRom 0x0000 0x99 with regs.sp := 0xFFFF } s2 0x9977 :=
  ⟨_, 0x77, 0x99, _, rfl, rfl, rfl⟩

/-- Each condition met and not met. -/
theorem test_witness_BranchTargets :
    CondIs .NZ { State.reset with regs.f := 0x70 } ∧ ¬ CondIs .NZ { State.reset with regs.f := 0x80 } ∧
    CondIs .Z { State.reset with regs.f := 0x80 } ∧ ¬ CondIs .Z { State.reset with regs.f := 0x70 } ∧
    CondIs .NC { State.reset with regs.f := 0xE0 } ∧ ¬ CondIs .NC { State.reset with regs.f := 0x10 } ∧
    CondIs .C { State.reset with regs.f := 0x10 } ∧ ¬ CondIs .C { State.reset with regs.f := 0xE0 } := by
  simp only [CondIs]; decide

theorem test_witness_JumpsChangeOnlyPc :
    (∃ x, Instr.jp_a16 0xFFFF = .jp_a16 x) ∧ (∃ e, Instr.jr_e8 0x80 = .jr_e8 e) ∧
    ∃ cc e, Instr.jr_C_e8 0x7F = Instr.ofJr cc e := ⟨⟨_, rfl⟩, ⟨_, rfl⟩, ⟨.C, _, rfl⟩⟩

theorem test_witness_CallAndRstPushReturn :
    (∃ y : Fin 8, Instr.rst_0x00 = Instr.ofRst y ∧ (0x0000 : Word).toNat = 8 * y.val) ∧
    (∃ y : Fin 8, Instr.rst_0x38 = Instr.ofRst y ∧ (0x0038 : Word).toNat = 8 * y.val) :=
  ⟨⟨0, rfl, rfl⟩, ⟨7, rfl, rfl⟩⟩

/-- Plain stack slots at the ends of their ranges, VRAM's first two bytes, and HRAM's last byte with IE: for `PushStoresWord`
and `StackRoundTrip`. -/
theorem test_witness_PlainStack :
    (State.Legal { State.reset with regs.sp := 0x8002 } ∧ PlainStorage { State.reset with regs.sp := 0x8002 } 0x8001 ∧
      PlainStorage { State.reset with regs.sp := 0x8002 } 0x8000) ∧
    State.reset.Legal ∧ State.reset.regs.sp - 1 = 0xFFFF ∧ State.reset.regs.sp - 2 = 0xFFFE ∧
    PlainStorage State.reset 0xFFFF ∧ PlainStorage State.reset 0xFFFE :=
  have h : ∀ {s : State} {a : Word} (st : Store), route s a = st → st ≠ .nowhere → (∀ r, st ≠ .rtc r) →
      0x8000 ≤ a.toNat → PlainStorage s a := fun st h1 h2 h3 h4 => ⟨h4, h1 ▸ h2, h1 ▸ h3⟩
  ⟨⟨legal_of (by decide) (by decide), h (.vram 1) (by decide) (by simp) (by simp) (by decide),
      h (.vram 0) (by decide) (by simp) (by simp) (by decide)⟩,
    legal_of (by decide) (by decide), by decide, by decide, h .ie (by decide) (by simp) (by simp) (by decide),
    h (.hram 0x7E) (by decide) (by simp) (by simp) (by decide)⟩

theorem test_witness_PushStoresWord :
    (∃ p, Instr.push_DE = Instr.ofPush p ∧ (0xBE : Byte) = State.reg { State.reset with regs.d := 0xBE } (Pair.hiReg p) ∧
      (0x00 : Byte) = State.reg { State.reset with regs.d := 0xBE } (Pair.loReg p)) ∧
    (0x3C : Byte) = State.reg { State.reset with regs.a := 0x3C, regs.f := 0xB0 } .A := ⟨⟨.DE, rfl, rfl, rfl⟩, rfl⟩

/-- An operand in a register and one in memory: for `IncrementResult`, `DecrementResult` and `RotateResult`. -/
theorem test_witness_OpndReads :
    OpndReads (.reg .L) { State.reset with regs.l := 0xFF } { State.reset with regs.l := 0xFF } 0xFF ∧
    OpndReads .mHL { State.reset with regs.h := 0xFE, regs.l := 0xA0 } { State.reset with regs.h := 0xFE, regs.l := 0xA0 }
      0xFF := ⟨⟨rfl, rfl⟩, rfl⟩

/-- The three forms of an ALU operation, a register, memory, an immediate: for `AddResult`, `SubtractResult`, `CompareResult`
and `XorResult`. -/
theorem test_witness_AluForm :
    AluForm .add .add_A_A 1 State.reset State.reset 0x00 ∧
    AluForm .cp .cp_mHL 1 { State.reset with regs.h := 0xFE, regs.l := 0xA0 }
      { State.reset with regs.h := 0xFE, regs.l := 0xA0 } 0xFF ∧
    AluForm .sub (.sub_d8 0x01) 2 State.reset State.reset 0x01 ∧
    AluForm .xor (.xor_d8 0xFF) 2 State.reset State.reset 0xFF :=
  ⟨.inl ⟨.reg .A, rfl, rfl, rfl, rfl⟩, .inl ⟨.mHL, rfl, rfl, rfl⟩, .inr ⟨rfl, rfl, rfl⟩, .inr ⟨rfl, rfl, rfl⟩⟩

theorem test_witness_AccumulatorRotateResult :
    Instr.ofRotA .rlc = some .rlca ∧ Instr.ofRotA .rrc = some .rrca ∧ Instr.ofRotA .rl = some .rla ∧
    Instr.ofRotA .rr = some .rra := ⟨rfl, rfl, rfl, rfl⟩

/-- The ends of the mapped ranges of the secondary table, and an unmapped pair. -/
theorem test_witness_PrefixDispatch :
    encode (Instr.ofRot .rlc (.reg .B)) = [0xCB, 0x00] ∧ encode (Instr.ofRot .sra (.reg .A)) = [0xCB, 0x2F] ∧
    encode (Instr.ofRot .srl (.reg .B)) = [0xCB, 0x38] ∧ encode (Instr.ofRot .srl .mHL) = [0xCB, 0x3E] ∧
    unmappedSecondary 0x2F = false ∧ unmappedSecondary 0x38 = false ∧ unmappedSecondary 0x30 = true := by decide

theorem test_witness_InterruptEnableWriters :
    ((.di : Instr) = .di ∧ false = false) ∧ (.ei : Instr) = .ei ∧ true = true := ⟨⟨rfl, rfl⟩, rfl, rfl⟩

/-- Of the instructions without a store: `POP BC`. -/
theorem test_witness_NonStoringKeepMemory : (∃ t, exec .pop_BC State.reset = .next t) ∧ StoresNothing .pop_BC := by
  refine ⟨⟨_, rfl⟩, ?_, ?_, ?_, ?_⟩
  · rintro (⟨r, h⟩ | ⟨n, h⟩ | h | h | ⟨k, h⟩)
    · cases r <;> cases h
    · cases h
    · cases h
    · cases h
    · cases k <;> cases h
  · rintro (⟨p, h⟩ | h | ⟨w, h⟩ | ⟨y, h⟩)
    · cases p <;> cases h
    · cases h
    · cases h
    · revert h; revert y; decide
  · intro w h; cases h
  · intro n h; cases h

/-- A store at each side of the boundary between control ranges and storage. -/
theorem test_witness_HLStoresStayAtHL :
    StoresAtHL .inc_mHL ∧ StoresAtHL .ld_mHL_H ∧ StoresAtHL (.ld_mHL_d8 0x02) ∧ StoresAtHL .srl_mHL ∧
    (∃ t, exec .inc_mHL { State.reset with regs.h := 0x80 } = .next t) ∧
    0x8000 ≤ (State.hl { State.reset with regs.h := 0x80 }).toNat ∧
    (∃ t, exec .inc_mHL { State.reset with regs.h := 0x7F, regs.l := 0xFF } = .next t) ∧
    (State.hl { State.reset with regs.h := 0x7F, regs.l := 0xFF }).toNat ≤ 0x7FFF :=
  ⟨.inr (.inr (.inl rfl)), .inl ⟨.H, rfl⟩, .inr (.inl ⟨_, rfl⟩), .inr (.inr (.inr (.inr ⟨.srl, rfl⟩))), ⟨_, rfl⟩,
    by decide, ⟨_, rfl⟩, by decide⟩

theorem test_witness_OtherStoresStayInPlace :
    (∃ t, exec (.ld_ma16_A 0x8000) State.reset = .next t) ∧ (∃ t, exec (.ld_ma16_A 0x7FFF) State.reset = .next t) ∧
    StoresOnStack (.call_a16 0x0200) ∧ StoresOnStack .rst_0x38 ∧ StoresOnStack .push_HL ∧
    (∃ t, exec .push_HL { State.reset with regs.sp := 0x8002 } = .next t) ∧
    0x8000 ≤ ((0x8002 : Word) - 2).toNat ∧ ((0x8000 : Word) - 1).toNat ≤ 0x7FFF :=
  ⟨⟨_, rfl⟩, ⟨_, rfl⟩, .inr (.inr (.inl ⟨_, rfl⟩)), .inr (.inr (.inr ⟨7, rfl⟩)), .inl ⟨.HL, rfl⟩, ⟨_, rfl⟩, by decide,
    by decide⟩

/-- The address map of 20_memory.md R52 at both ends of every range: the clauses of `PlainArrays`, `EchoAndHole` and
`RomReads` at their boundary values. -/
theorem test_witness_address_map :
    ([(0x0000, .rom 0), (0x3FFF, .rom 0x3FFF), (0x4000, .rom 0x4000), (0x7FFF, .rom 0x7FFF), (0x8000, .vram 0),
      (0x9FFF, .vram 0x1FFF), (0xA000, .nowhere), (0xBFFF, .nowhere), (0xC000, .wram 0), (0xDFFF, .wram 0x1FFF),
      (0xE000, .wram 0), (0xFDFF, .wram 0x1DFF), (0xFE00, .oam 0), (0xFE9F, .oam 0x9F), (0xFEA0, .nowhere),
      (0xFEFF, .nowhere), (0xFF00, .io 0), (0xFF7F, .io 0x7F), (0xFF80, .hram 0), (0xFFFE, .hram 0x7E),
      (0xFFFF, .ie)] : List (Word × Store)).all (fun p => decide (route State.reset p.1 = p.2)) = true := by
  decide +kernel

/-- Each clause at both ends of its range. -/
theorem test_witness_PlainArrays : State.reset.Legal ∧
    ([(0x8000, 0x8000, 0x9FFF), (0x9FFF, 0x8000, 0x9FFF), (0xC000, 0xC000, 0xDFFF), (0xDFFF, 0xC000, 0xDFFF),
      (0xFE00, 0xFE00, 0xFE9F), (0xFE9F, 0xFE00, 0xFE9F), (0xFF00, 0xFF00, 0xFF7F), (0xFF7F, 0xFF00, 0xFF7F),
      (0xFF80, 0xFF80, 0xFFFE), (0xFFFE, 0xFF80, 0xFFFE), (0xFFFF, 0xFFFF, 0xFFFF)] : List (Word × Nat × Nat)).all
      (fun p => decide (p.2.1 ≤ p.1.toNat ∧ p.1.toNat ≤ p.2.2)) = true :=
  ⟨test_witness_Legal.1, by decide⟩

/-- Both ends of the echo and of the hole. -/
theorem test_witness_EchoAndHole :
    (0 : Nat) ≤ 0x1DFF ∧ BitVec.ofNat 16 (0xE000 + 0x1DFF) = 0xFDFF ∧ 0xFEA0 ≤ (0xFEA0 : Word).toNat ∧
    (0xFEFF : Word).toNat ≤ 0xFEFF := by decide

/-- The last byte of an image, the first beyond it, and a bank beyond it. -/
theorem test_witness_RomReads :
    route (onCart .mbc8bit .none) 0x7FFF = .rom 0x7FFF ∧
    route { onCart .mbc8bit .none with mbc.romBank := 2 } 0x4000 = .nowhere ∧
    route { onCart .mbc8bit .none with mbc.romBank := 0 } 0x4000 = .rom 0 := by decide +kernel

/-- Each clause: disabled, the last byte of the RAM, the first beyond it, on a plain and on the RTC-capable type. -/
theorem test_witness_ExternalRam :
    (onCart .mbc5bit .kib2).Legal ∧ (onCart .mbc5bit .kib2).mbc.ramEnabled = false ∧
    (window .mbc5bit .kib2 0x00).Legal ∧ route (window .mbc5bit .kib2 0x00) 0xA7FF = .eram 0x7FF ∧
    route (window .mbc5bit .kib2 0x00) 0xA800 = .nowhere ∧
    (window .mbc7bitRtc .kib32 0x03).Legal ∧ (window .mbc7bitRtc .kib32 0x03).mbc.ramBank.toNat ≤ 3 ∧
    route (window .mbc7bitRtc .kib32 0x03) 0xBFFF = .eram 0x7FFF :=
  ⟨legal_of (by decide) (by decide), by decide, legal_of (by decide) (by decide), by decide +kernel, by decide +kernel,
    legal_of (by decide) (by decide), by decide, by decide +kernel⟩

/-- The first and the last selector, latched and not. -/
theorem test_witness_RtcWindow :
    ((window .mbc7bitRtc .none 0x08).mbc.ramBank.toNat, RtcReg.seconds) ∈
      [(0x08, RtcReg.seconds), (0x09, .minutes), (0x0A, .hours), (0x0B, .dayLow), (0x0C, .dayHigh)] ∧
    ((window .mbc7bitRtc .none 0x0C).mbc.ramBank.toNat, RtcReg.dayHigh) ∈
      [(0x08, RtcReg.seconds), (0x09, .minutes), (0x0A, .hours), (0x0B, .dayLow), (0x0C, .dayHigh)] ∧
    (window .mbc7bitRtc .none 0x08).mbc.ramEnabled = true ∧ (window .mbc7bitRtc .none 0x08).cart.mbcType = .mbc7bitRtc ∧
    (window .mbc7bitRtc .none 0x08).rtc.latched = false ∧
    Rtc.latched (State.rtc { window .mbc7bitRtc .none 0x08 with rtc.latched := true }) = true := by decide

/-- Both ends of the range and both clauses. -/
theorem test_witness_RamEnableWrites :
    (0x0000 : Word).toNat ≤ 0x1FFF ∧ (0x1FFF : Word).toNat ≤ 0x1FFF ∧ (0x5A : Byte).toNat % 16 = 0x0A ∧
    (0xA5 : Byte).toNat % 16 ≠ 0x0A ∧ (onCart .mbc8bit .none).cart.mbcType ≠ .romOnly ∧
    (busWrite 0x2000 0x0A (onCart .mbc8bit .none)).mbc.ramEnabled = false := by decide

/-- The clauses of the control ranges at their ends: the write at the last address of each range does that range's work. -/
theorem test_witness_BankControlWrites :
    (busWrite 0x1FFF 0x0A (onCart .mbc5bit .none)).mbc = { ramEnabled := true, romBank := 1, ramBank := 0, mode := false } ∧
    (busWrite 0x2000 0x02 (onCart .mbc5bit .none)).mbc = { ramEnabled := false, romBank := 2, ramBank := 0, mode := false } ∧
    (busWrite 0x3FFF 0x02 (onCart .mbc5bit .none)).mbc = { ramEnabled := false, romBank := 2, ramBank := 0, mode := false } ∧
    (busWrite 0x4000 0x02 (onCart .mbc5bit .none)).mbc = { ramEnabled := false, romBank := 1, ramBank := 2, mode := false } ∧
    (busWrite 0x5FFF 0x0C (onCart .mbc7bitRtc .none)).mbc
      = { ramEnabled := false, romBank := 1, ramBank := 0x0C, mode := false } ∧
    (busWrite 0x6000 0x01 (onCart .mbc7bitRtc .none)).rtc.latched = true ∧
    (busWrite 0x7FFF 0x01 (onCart .mbc7bitRtc .none)).rtc.latched = true ∧
    busWrite 0x7FFF 0x02 (onCart .mbc7bitRtc .none) = onCart .mbc7bitRtc .none ∧
    busWrite 0x6000 0x01 (onCart .mbc5bit .none) = onCart .mbc5bit .none ∧
    busWrite 0x2000 0x02 State.reset = State.reset := by decide

theorem test_witness_ReadsRepeat : QuietRead State.reset 0x0000 ∧ State.reset.Legal ∧ PlainStorage State.reset 0xFFFF :=
  ⟨quiet_of (st := .rom 0) (by decide) (by simp), test_witness_Legal.1, test_witness_PlainStack.2.2.2.2.1⟩

/-- A running clock, forward, standing and backward. -/
theorem test_witness_RtcRefreshArithmetic :
    ∃ r : Rtc, r.dh.getLsbD 6 = false ∧ r.last ≤ 100 ∧ r.last ≤ 50 ∧ ¬ r.last ≤ 49 ∧ r.refresh 49 = { r with last := 49 } :=
  ⟨{ s := 1, m := 0, h := 0, dl := 0, dh := 0xBE, latched := true, last := 50 }, by decide⟩

theorem test_witness_RtcStandsStill :
    (0x40 : Byte).getLsbD 6 = true ∧ (50 : Nat) ≤ 60 ∧ (onCart .mbc8bit .none).cart.mbcType ≠ .mbc7bitRtc ∧
    ∃ t, step (onCart .mbc8bit .none) = .next t := ⟨by decide, by decide, by decide, ⟨_, rfl⟩⟩

end Sys2Proof.Tests
end

/-! # Registers (spec/10_state.md): the pairs as views of their two registers -/

namespace Sys2Proof.Machine

/-! ## The mask of `F` in numbers (R13) -/

/-- Masking with `0xF0` shifts the low nibble out and zeros in: a division by 16 and a multiplication. -/
theorem and_highNibble_toNat (b : Byte) : (b &&& 0xF0).toNat = b.toNat / 16 * 16 := by
  have shifts : b &&& (BitVec.allOnes 8 <<< 4) = b >>> 4 <<< 4 := BitVec.shiftLeft_ushiftRight.symm
  have mask : (0xF0 : Byte) = BitVec.allOnes 8 <<< 4 := by decide
  have hb := b.isLt
  rw [mask, shifts, BitVec.toNat_shiftLeft, BitVec.toNat_ushiftRight, Nat.shiftLeft_eq, Nat.shiftRight_eq_div_pow]
  omega

/-! ## Reading a pair (R12) -/

theorem State.pair_toNat (s : State) (p : Pair) :
    (s.pair p).toNat = (s.reg (Pair.hiReg p)).toNat * 256 + (s.reg (Pair.loReg p)).toNat :=
  joinBytes_toNat _ _

theorem State.af_toNat (s : State) : s.af.toNat = s.regs.a.toNat * 256 + s.regs.f.toNat :=
  joinBytes_toNat _ _

/-! ## Writing a pair (R12) -/

theorem State.setPair_BC (s : State) (w : Word) :
    s.setPair .BC w = { s with regs.b := hiByte w, regs.c := loByte w } := rfl

theorem State.setPair_DE (s : State) (w : Word) :
    s.setPair .DE w = { s with regs.d := hiByte w, regs.e := loByte w } := rfl

theorem State.setPair_HL (s : State) (w : Word) :
    s.setPair .HL w = { s with regs.h := hiByte w, regs.l := loByte w } := rfl

/-- Settles O49: a read joins the two registers, and a write puts the word's two bytes into them, the low one masked in
`AF`. -/
theorem pairsAreViews : Obligations.PairsAreViews := by
  unfold Obligations.PairsAreViews
  refine ⟨fun s => ⟨s.pair_toNat .BC, s.pair_toNat .DE, s.pair_toNat .HL, s.af_toNat⟩, fun p s w => ?_, fun s w => ?_⟩
  · refine ⟨hiByte w, loByte w, hiByte_toNat w, loByte_toNat w, ?_⟩
    cases p with
    | BC => exact s.setPair_BC w
    | DE => exact s.setPair_DE w
    | HL => exact s.setPair_HL w
  · have masked : (loByte w &&& 0xF0).toNat = w.toNat % 256 / 16 * 16 := by
      rw [and_highNibble_toNat, loByte_toNat]
    exact ⟨hiByte w, loByte w &&& 0xF0, hiByte_toNat w, masked, rfl⟩

end Sys2Proof.Machine

/-! # Memory (spec/20_memory.md): the arrays that are plain storage -/

namespace Sys2Proof.Machine

/-! ## The arrays of a legal state, and what a write does to one (R20, R21) -/

theorem Ram.legal_iff (ramSize : Nat) (r : Ram) : r.legal ramSize = true ↔
    Memory.wf 0x2000 r.vram ∧ Memory.wf 0x2000 r.wram ∧ Memory.wf 0xA0 r.oam ∧ Memory.wf 0x80 r.io ∧
      Memory.wf 0x7F r.hram ∧ Memory.wf ramSize r.eram := by
  simp only [Ram.legal, Bool.and_eq_true, and_assoc]

theorem Memory.write_updates {size : Nat} {m : Memory} (hm : Memory.wf size m) (k : Nat) (v : Byte) :
    (m.write k v).read k = v ∧ ∀ j, j ≠ k → (m.write k v).read j = m.read j :=
  ⟨Memory.read_write_same hm, fun _ => Memory.read_write_other m⟩

/-! ## A bus access, once the address's store is known (R54, R55, R68) -/

theorem busRead_of_route {s : State} {a : Word} {st : Store} (hr : route s a = st) (quiet : ∀ reg, st ≠ .rtc reg) :
    busRead a s = (s.storeByte st, s) := by
  subst hr
  exact busRead_quiet quiet

theorem busWrite_of_route {s : State} {a : Word} {st : Store} (v : Byte) (high : 0x8000 ≤ a.toNat)
    (hr : route s a = st) : busWrite a v s = s.putStore st v := by
  rw [busWrite_high high, hr]

/-- Settles O50: in each range the address map names the array and the index, a read takes that byte, and a write is
`Memory.write` there, which in a legal state changes this index only. -/
theorem plainArrays : Obligations.PlainArrays := by
  unfold Obligations.PlainArrays
  intro a v s legal
  obtain ⟨vram, wram, oam, io, hram, -⟩ := (Ram.legal_iff _ _).mp legal.ram
  refine ⟨fun lo hi => ?_, fun lo hi => ?_, fun lo hi => ?_, fun lo hi => ?_, fun lo hi => ?_, fun top => ?_⟩
  · have hr := route_vram (s := s) lo hi
    exact ⟨busRead_of_route hr nofun, _, busWrite_of_route v lo hr, Memory.write_updates vram _ v⟩
  · have hr := route_wram (s := s) lo hi
    exact ⟨busRead_of_route hr nofun, _, busWrite_of_route v (by omega) hr, Memory.write_updates wram _ v⟩
  · have hr := route_oam (s := s) lo hi
    exact ⟨busRead_of_route hr nofun, _, busWrite_of_route v (by omega) hr, Memory.write_updates oam _ v⟩
  · have hr := route_io (s := s) lo hi
    exact ⟨busRead_of_route hr nofun, _, busWrite_of_route v (by omega) hr, Memory.write_updates io _ v⟩
  · have hr := route_hram (s := s) lo hi
    exact ⟨busRead_of_route hr nofun, _, busWrite_of_route v (by omega) hr, Memory.write_updates hram _ v⟩
  · have hr := route_ie (s := s) top
    exact ⟨busRead_of_route hr nofun, busWrite_of_route v (by omega) hr⟩

end Sys2Proof.Machine

/-! # NOP and loads (spec/40_nop_loads.md) -/

namespace Sys2Proof.Machine

/-! ## What moving `PC` leaves as it was -/

theorem State.advance_sameOutside (s : State) (n : Nat) : SameOutside s (s.advance n) :=
  ⟨⟨s.advance_mbc n, s.advance_ram n, s.advance_cart n, s.advance_clock n⟩, s.advance_rtc n⟩

theorem State.advance_sameRegs (s : State) (n : Nat) : SameRegsBut [] s (s.advance n) :=
  ⟨fun r _ => s.advance_reg n r, s.advance_regs_sp n, s.advance_regs_ime n⟩

/-- Settles O20: `NOP` runs as `nopOp`, which is a move of `PC` by 1. -/
theorem nopOnlyAdvances : Obligations.NopOnlyAdvances := by
  unfold Obligations.NopOnlyAdvances
  refine ⟨rfl, fun s => ⟨s.advance 1, exec_of_nop s, ?pc, ?regs, ?flags, ?outside⟩⟩
  case pc => exact s.advance_regs_pc 1
  case regs => exact s.advance_sameRegs 1
  case flags => exact s.advance_regs_f 1
  case outside => exact s.advance_sameOutside 1

end Sys2Proof.Machine

/-! # The real-time clock (spec/60_exceptions.md section 4) -/

namespace Sys2Proof.Machine

/-- The refresh of a running clock (R303) is determined by what it shows: the clock `q` in range that shows the elapsed
seconds more, with the overflow bit set when they pass 512 days, and keeps the rest of `rtcDH` and the latch. -/
theorem Rtc.refresh_eq_of_total {now : Nat} {r q : Rtc} (running : r.halted = false)
    (total : q.total = (r.total + (now - r.last)) % (512 * 86400))
    (hs : q.s.toNat < 60) (hm : q.m.toNat < 60) (hh : q.h.toNat < 24)
    (overflow : q.dh.getLsbD 7 = (r.dh.getLsbD 7 || decide (512 * 86400 ≤ r.total + (now - r.last))))
    (middle : ∀ k, 1 ≤ k → k ≤ 6 → q.dh.getLsbD k = r.dh.getLsbD k)
    (latched : q.latched = r.latched) (last : q.last = now) : r.refresh now = q := by
  obtain ⟨s_lt, m_lt, h_lt⟩ := Rtc.refresh_in_range (now := now) running
  have dh_bits (k : Nat) (h1 : 1 ≤ k) (h8 : k < 8) : (r.refresh now).dh.getLsbD k = q.dh.getLsbD k := by
    obtain rfl | h6 : k = 7 ∨ k ≤ 6 := by omega
    · rw [Rtc.refresh_overflow_total running, overflow]
    · rw [Rtc.refresh_dh_middle running k h1 h6, middle k h1 h6]
  exact Rtc.ext_total ((Rtc.refresh_total running).trans total.symm) s_lt m_lt h_lt hs hm hh dh_bits
    ((Rtc.refresh_latched now r).trans latched.symm) ((Rtc.refresh_last running).trans last.symm)

/-- Settles O60: the clock shows the last second of day 255, and one second more is the start of day 256, short of the
overflow. -/
theorem rtcWorkedExample : Obligations.RtcWorkedExample := by
  unfold Obligations.RtcWorkedExample
  intro t latched
  have before : (Rtc.mk 59 59 23 0xFF 0x00 latched t).total = 256 * 86400 - 1 := by
    simp [Rtc.total, Rtc.days]
  have after : (Rtc.mk 0 0 0 0x00 0x01 latched (t + 1)).total = 256 * 86400 := by
    simp [Rtc.total, Rtc.days]
  have elapsed : t + 1 - t = 1 := Nat.add_sub_cancel_left ..
  refine Rtc.refresh_eq_of_total ?running ?total (by simp) (by simp) (by simp) ?overflow ?middle rfl rfl
  case running => simp [Rtc.halted]
  case total => rw [before, after, elapsed]
  case overflow =>
    rw [before, elapsed]
    simp
  case middle =>
    intro k h1 _
    have k_ne : k ≠ 0 := by omega
    simp [k_ne]

end Sys2Proof.Machine

/-! # Encoding (spec/30_encoding.md) -/

namespace Sys2Proof.Machine

/-! ## Round trips, by the format of the row (R120, R130) -/

/-- Decoding the encoding of `i`, whatever bytes follow, gives `i` back and leaves those bytes. -/
def RoundTrips (i : Instr) : Prop := ∀ rest, decode (encode i ++ rest) = .ok (i, rest)

section
variable {op b op2 : Byte} {i : Instr}

theorem RoundTrips.of_op (bytes : encode i = [op]) (row : primary op = some (.op i)) : RoundTrips i := by
  intro rest
  rw [bytes]
  exact decode_of_op row

theorem RoundTrips.of_imm8 {f : Byte → Instr} (bytes : encode (f b) = [op, b]) (row : primary op = some (.imm8 f)) :
    RoundTrips (f b) := by
  intro rest
  rw [bytes]
  exact decode_of_imm8 row

theorem RoundTrips.of_imm16 {f : Word → Instr} {w : Word} (bytes : encode (f w) = encode16 op w)
    (row : primary op = some (.imm16 f)) : RoundTrips (f w) := by
  intro rest
  rw [bytes]
  have decoded := decode_of_imm16 (b := loByte w) (c := hiByte w) (rest := rest) row
  rwa [joinBytes_hi_lo] at decoded

theorem RoundTrips.of_prefixed (bytes : encode i = [0xCB, op2]) (row : decodePrefixed op2 = i) : RoundTrips i := by
  intro rest
  rw [bytes, ← row]
  exact decode_of_prefixed rfl

end

theorem decodePrefixed_of_encode {k : RotKind} {o : Opnd8} {op2 : Byte} (h : encode (Instr.ofRot k o) = [0xCB, op2]) :
    decodePrefixed op2 = Instr.ofRot k o := by
  rw [decodePrefixed, secondary_of_encode h]

theorem decodePrefixed_of_unmapped {op2 : Byte} (h : unmappedSecondary op2 = true) :
    decodePrefixed op2 = .prefix_CB op2 := by
  rw [decodePrefixed, (secondary_eq_none_iff op2).mpr h]

/-- The 56 rows of the secondary table: the second byte is the one that `encode` writes. -/
theorem RoundTrips.ofRot (k : RotKind) (o : Opnd8) : RoundTrips (Instr.ofRot k o) := by
  rcases o with r | _
  · cases k <;> cases r <;> exact .of_prefixed rfl (decodePrefixed_of_encode rfl)
  · cases k <;> exact .of_prefixed rfl (decodePrefixed_of_encode rfl)

theorem roundTrips_of_wf {i : Instr} (wf : i.wf = true) : RoundTrips i := by
  cases Instr.family i
  case ldReg d r => cases d <;> cases r <;> exact .of_op rfl rfl
  case ldFromHL d => cases d <;> exact .of_op rfl rfl
  case ldToHL r => cases r <;> exact .of_op rfl rfl
  case ldImm o n => rcases o with (_ | _ | _ | _ | _ | _ | _) | _ <;> exact .of_imm8 (f := Instr.ofLdImm _) rfl rfl
  case ldPair p w => cases p <;> exact .of_imm16 (f := Instr.ofLdPair _) rfl rfl
  case ldSP w => exact .of_imm16 rfl rfl
  case ldAbs w => exact .of_imm16 rfl rfl
  case stAbs w => exact .of_imm16 rfl rfl
  case jp w => exact .of_imm16 rfl rfl
  case call w => exact .of_imm16 rfl rfl
  case rst y => fin_cases y <;> exact .of_op rfl rfl
  case jr e => exact .of_imm8 rfl rfl
  case jrCond cc e => cases cc <;> exact .of_imm8 (f := Instr.ofJr _) rfl rfl
  case push p => cases p <;> exact .of_op rfl rfl
  case pop p => cases p <;> exact .of_op rfl rfl
  case inc o => rcases o with (_ | _ | _ | _ | _ | _ | _) | _ <;> exact .of_op rfl rfl
  case dec o => rcases o with (_ | _ | _ | _ | _ | _ | _) | _ <;> exact .of_op rfl rfl
  case alu op o => rcases o with (_ | _ | _ | _ | _ | _ | _) | _ <;> cases op <;> exact .of_op rfl rfl
  case aluImm op n => cases op <;> exact .of_imm8 (f := Instr.ofAluImm _) rfl rfl
  case rot k o => exact .ofRot k o
  case prefixCB op2 => exact .of_prefixed rfl (decodePrefixed_of_unmapped wf)
  case nop | ret | pushAF | popAF | cpl | rlca | rrca | rla | rra | di | ei => exact .of_op rfl rfl

/-- Settles O1: the row of a well-formed instruction is the entry of its first byte, and of its second after 0xCB. -/
theorem decodeOfEncode : Obligations.DecodeOfEncode := by
  unfold Obligations.DecodeOfEncode
  intro i rest wf
  exact roundTrips_of_wf wf rest

/-- Settles O2: no bytes decode to nothing, and the rest is `decode_shape`. -/
theorem encodeOfDecode : Obligations.EncodeOfDecode := by
  unfold Obligations.EncodeOfDecode
  intro bytes rest i decoded
  cases bytes with
  | nil => cases decoded
  | cons op operands =>
    obtain ⟨wf, used, rfl, bytes, -⟩ := decode_shape decoded
    exact ⟨wf, by rw [bytes]; rfl⟩

/-- Settles O5: `decode_shape` counts the bytes used, and a list of the right length is never too short. -/
theorem firstByteDecidesLength : Obligations.FirstByteDecidesLength := by
  unfold Obligations.FirstByteDecidesLength
  refine ⟨fun op rest more i decoded => ?_, fun op operands mapped len => ?_, rfl⟩
  · obtain ⟨-, used, split, -, len⟩ := decode_shape decoded
    exact ⟨used, split, len⟩
  · obtain ⟨empty, -⟩ | decoded := decode_of_length op operands (by omega)
    · exact absurd ((primary_eq_none_iff op).mp empty) mapped
    · exact decoded

/-! ## The bytes without a meaning (R150, R151) -/

theorem decode_unmapped_iff (op : Byte) (rest : List Byte) :
    decode (op :: rest) = .error (.unmappedPrimary op) ↔ primary op = none := by
  refine ⟨fun refused => ?_, decode_of_none⟩
  cases row : primary op with
  | none => rfl
  | some f => rcases f with _ | _ | _ | _ <;> rcases rest with _ | ⟨_, _ | _⟩ <;> simp [decode, row] at refused

theorem decodePrefixed_eq_prefix_iff (op2 : Byte) :
    decodePrefixed op2 = .prefix_CB op2 ↔ unmappedSecondary op2 = true := by
  refine ⟨fun h => ?_, decodePrefixed_of_unmapped⟩
  have wf := (decodePrefixed_ok op2).1
  rwa [h] at wf

theorem unmappedSecondary_iff (op2 : Byte) :
    unmappedSecondary op2 = true ↔ (0x30 ≤ op2.toNat ∧ op2.toNat ≤ 0x37) ∨ 0x40 ≤ op2.toNat := by
  simp only [unmappedSecondary, Bool.or_eq_true, Bool.and_eq_true, decide_eq_true_eq]

/-- Settles O3: a first byte is refused by name where its entry is empty, and the row `prefix_CB` stands for the empty
entries of the secondary table. -/
theorem unmappedBytes : Obligations.UnmappedBytes := by
  unfold Obligations.UnmappedBytes
  refine ⟨fun op rest => (decode_unmapped_iff op rest).trans (primary_eq_none_iff op), fun op2 rest => ?_⟩
  have decoded : decode (0xCB :: op2 :: rest) = .ok (decodePrefixed op2, rest) := decode_of_prefixed rfl
  rw [decoded, ← unmappedSecondary_iff, ← decodePrefixed_eq_prefix_iff]
  simp

/-- Settles O4: each word is evaluated by the decoder. -/
theorem sampleWordsDecode : Obligations.SampleWordsDecode := by
  unfold Obligations.SampleWordsDecode
  exact ⟨rfl, rfl, rfl, rfl, rfl, rfl, rfl, rfl, rfl, rfl, rfl, rfl, rfl⟩

end Sys2Proof.Machine

/-! # The step (spec/30_encoding.md R121, spec/60_exceptions.md section 1) -/

namespace Sys2Proof.Machine

/-! ## What a fetch gives -/

theorem fetch_of_unmapped {s : State} (h : primary (busRead s.regs.pc s).1 = none) :
    fetch s = ([(busRead s.regs.pc s).1], (busRead s.regs.pc s).2) := by
  have len : fetchLength (busRead s.regs.pc s).1 = 1 := by rw [fetchLength, h]
  simp only [fetch, len, Nat.sub_self, fetchBytes]

theorem fetch_of_prefix {s s1 s2 : State} {op2 : Byte} (first : busRead s.regs.pc s = (0xCB, s1))
    (second : busRead (s.regs.pc + 1) s1 = (op2, s2)) : fetch s = ([0xCB, op2], s2) := by
  have len : fetchLength 0xCB = 2 := rfl
  simp only [fetch, first, len, fetchBytes, second]

theorem fetch_eq_fetchBytes {s : State} {n : Nat} (len : fetchLength (busRead s.regs.pc s).1 = n + 1) :
    fetch s = fetchBytes (n + 1) s.regs.pc s := by
  simp only [fetch, len, fetchBytes, Nat.add_sub_cancel]

/-- Where `bytes` stand from `a` on, read with no side effect, the fetch of as many gives them and leaves the state. -/
theorem fetchBytes_of_code {s : State} {a : Word} {bytes : List Byte}
    (code : ∀ k b, bytes[k]? = some b →
      QuietRead s (a + BitVec.ofNat 16 k) ∧ (busRead (a + BitVec.ofNat 16 k) s).1 = b) :
    fetchBytes bytes.length a s = (bytes, s) := by
  rw [fetchBytes_quiet s bytes.length a fun k hk => (code k _ (List.getElem?_eq_getElem hk)).1]
  refine Prod.ext (List.ext_getElem (by simp) fun k _ hk => ?_) rfl
  rw [List.getElem_map, List.getElem_range]
  exact (code k _ (List.getElem?_eq_getElem hk)).2

/-- An encoding is as long as its first byte says. -/
theorem encode_shape {i : Instr} (wf : i.wf = true) :
    ∃ op used, encode i = op :: used ∧ fetchLength op = used.length + 1 := by
  have decoded := roundTrips_of_wf wf []
  cases enc : encode i with
  | nil =>
    rw [enc] at decoded
    cases decoded
  | cons op operands =>
    rw [enc, List.cons_append] at decoded
    obtain ⟨-, used, -, enc', len⟩ := decode_shape decoded
    rw [enc] at enc'
    cases enc'
    exact ⟨op, operands, rfl, len.symm⟩

/-- Where an encoding stands at `PC`, read with no side effect, the fetch gives it and leaves the state. -/
theorem fetch_of_encode {s : State} {i : Instr} (wf : i.wf = true)
    (code : ∀ k b, (encode i)[k]? = some b →
      QuietRead s (s.regs.pc + BitVec.ofNat 16 k) ∧ (busRead (s.regs.pc + BitVec.ofNat 16 k) s).1 = b) :
    fetch s = (encode i, s) := by
  obtain ⟨op, used, enc, len⟩ := encode_shape wf
  have first : (busRead s.regs.pc s).1 = op := by simpa using (code 0 op (by rw [enc]; rfl)).2
  rw [fetch_eq_fetchBytes (n := used.length) (by rw [first, len]), ← fetchBytes_of_code code, enc, List.length_cons]

/-! ## The step, once the fetched bytes are known -/

theorem step_of_decode {s : State} {i : Instr} {rest : List Byte} (h : decode (fetch s.takeSample).1 = .ok (i, rest)) :
    step s = exec i (fetch s.takeSample).2 := by
  rw [step, runDecoded, h]

/-- Settles O6: the step is `runDecoded` on what the fetch gives. -/
theorem stepRunsDecodedInstruction : Obligations.StepRunsDecodedInstruction := by
  unfold Obligations.StepRunsDecodedInstruction
  intro s i rest decoded
  exact step_of_decode decoded

/-- Settles O7: the fetch gives the encoding, and that decodes to the instruction. -/
theorem stepRunsEncodedInstruction : Obligations.StepRunsEncodedInstruction := by
  unfold Obligations.StepRunsEncodedInstruction
  intro s i wf code
  have fetched : fetch s.takeSample = (encode i, s.takeSample) := by
    refine fetch_of_encode wf fun k b hb => ?_
    obtain ⟨quiet, read⟩ := code k b hb
    rw [State.takeSample_regs, busRead_fst_takeSample quiet]
    exact ⟨quietRead_takeSample quiet, read⟩
  have decoded : decode (fetch s.takeSample).1 = .ok (i, []) := by
    rw [fetched, ← roundTrips_of_wf wf [], List.append_nil]
  rw [step_of_decode decoded, fetched]

/-! ## Halted (60_exceptions.md R270 to R273) -/

theorem step_of_unmapped_primary {s s1 : State} {op : Byte} (first : busRead s.regs.pc s.takeSample = (op, s1))
    (h : primary op = none) : step s = .fault (.unmappedOpcode .primary op s.regs.pc s1) := by
  have fetched := fetch_of_unmapped (s := s.takeSample) (by rwa [State.takeSample_regs, first])
  rw [State.takeSample_regs, first] at fetched
  obtain ⟨-, halted⟩ | ⟨i, decoded, -⟩ := step_cases s
  · rw [halted, fetched, first]
  · rw [fetched, decode_of_none h] at decoded
    cases decoded

theorem exec_prefix_of_unmapped {op2 : Byte} (s : State) (h : unmappedSecondary op2 = true) :
    exec (.prefix_CB op2) s = .fault (.unmappedOpcode .secondary op2 s.regs.pc s) := by
  rw [exec_of_prefix_CB, dispatchPrefixed_of_none s ((secondary_eq_none_iff op2).mpr h)]

theorem step_of_unmapped_secondary {s s1 s2 : State} {op2 : Byte} (first : busRead s.regs.pc s.takeSample = (0xCB, s1))
    (second : busRead (s.regs.pc + 1) s1 = (op2, s2)) (h : unmappedSecondary op2 = true) :
    step s = .fault (.unmappedOpcode .secondary op2 s.regs.pc s2) := by
  have fetched : fetch s.takeSample = ([0xCB, op2], s2) :=
    fetch_of_prefix (by rwa [State.takeSample_regs]) (by rwa [State.takeSample_regs])
  have decoded : decode (fetch s.takeSample).1 = .ok (.prefix_CB op2, []) := by
    rw [fetched, ← decodePrefixed_of_unmapped h]
    exact decode_of_prefixed rfl
  have regs : s2.regs = s.regs := by
    rw [← State.takeSample_regs s, ← (fetch_sameStorage s.takeSample).2, fetched]
  rw [step_of_decode decoded, fetched, exec_prefix_of_unmapped s2 h, regs]

/-- Settles O8: nothing but the first byte is fetched, and the state after is the one that this read leaves. -/
theorem unmappedPrimaryHalts : Obligations.UnmappedPrimaryHalts := by
  unfold Obligations.UnmappedPrimaryHalts
  rintro s b rfl unmapped
  refine ⟨(busRead s.regs.pc s.takeSample).2, step_of_unmapped_primary rfl ((primary_eq_none_iff _).mpr unmapped),
    by simp, by simp, by simp, by simp, ?_⟩
  intro quiet
  rw [busRead_quiet (quietRead_takeSample quiet), State.takeSample_rtc]

/-- Settles O9: the state after is the one that the two reads leave. -/
theorem unmappedSecondaryHalts : Obligations.UnmappedSecondaryHalts := by
  unfold Obligations.UnmappedSecondaryHalts
  intro s s1 s2 op2 first second unmapped
  refine ⟨s2, step_of_unmapped_secondary first second unmapped, ?_⟩
  obtain rfl : s1 = (busRead s.regs.pc s.takeSample).2 := by rw [first]
  obtain rfl : s2 = (busRead (s.regs.pc + 1) (busRead s.regs.pc s.takeSample).2).2 := by rw [second]
  refine ⟨by simp, by simp, by simp, by simp, fun quiet1 quiet2 => ?_⟩
  rw [busRead_quiet (quietRead_takeSample quiet1), busRead_quiet (quietRead_takeSample quiet2), State.takeSample_rtc]

/-- What an instruction can answer: a next state, or Halted in the state as it was. -/
theorem exec_answers (i : Instr) (s : State) : (∃ t, exec i s = .next t) ∨
    ∃ op2, i = .prefix_CB op2 ∧ unmappedSecondary op2 = true := by
  by_cases h : ∃ op2, i = .prefix_CB op2 ∧ unmappedSecondary op2 = true
  · exact .inr h
  · refine .inl (exec_next i s fun op2 row => ?_)
    exact Bool.eq_false_iff.mpr fun unmapped => h ⟨op2, row, unmapped⟩

/-- What a step can answer (R270, R272): a next state, or Halted by the byte at `PC`, or Halted by the byte after
0xCB. -/
theorem step_answers {s s1 s2 : State} {op op2 : Byte} (first : busRead s.regs.pc s.takeSample = (op, s1))
    (second : busRead (s.regs.pc + 1) s1 = (op2, s2)) :
    (primary op = none ∧ step s = .fault (.unmappedOpcode .primary op s.regs.pc s1)) ∨
    (op = 0xCB ∧ unmappedSecondary op2 = true ∧ step s = .fault (.unmappedOpcode .secondary op2 s.regs.pc s2)) ∨
    (primary op ≠ none ∧ ¬ (op = 0xCB ∧ unmappedSecondary op2 = true) ∧ ∃ t, step s = .next t) := by
  by_cases hp : primary op = none
  · exact .inl ⟨hp, step_of_unmapped_primary first hp⟩
  by_cases hs : op = 0xCB ∧ unmappedSecondary op2 = true
  · obtain ⟨rfl, unmapped⟩ := hs
    exact .inr (.inl ⟨rfl, unmapped, step_of_unmapped_secondary first second unmapped⟩)
  refine .inr (.inr ⟨hp, hs, ?_⟩)
  obtain ⟨empty, -⟩ | ⟨i, decoded, run⟩ := step_cases s
  · rw [first] at empty
    exact absurd empty hp
  have fetched := fetch_bytes s.takeSample
  rw [State.takeSample_regs, first] at fetched
  rw [run]
  rw [fetched] at decoded
  obtain ⟨-, used, split, enc, -⟩ := decode_shape decoded
  obtain next | ⟨op2', rfl, unmapped⟩ := exec_answers i (fetch s.takeSample).2
  · exact next
  · obtain ⟨rfl, rfl⟩ : (0xCB : Byte) = op ∧ [op2'] = used := by simpa [encode] using enc
    have both : fetch s.takeSample = ([0xCB, op2], s2) :=
      fetch_of_prefix (by rwa [State.takeSample_regs]) (by rwa [State.takeSample_regs])
    obtain rfl : op2 = op2' := by
      rw [both, split] at fetched
      simpa using fetched
    exact absurd ⟨rfl, unmapped⟩ hs

/-- Settles O10: the three answers of a step exclude each other. -/
theorem stepStopsOnlyOnUnmapped : Obligations.StepStopsOnlyOnUnmapped := by
  unfold Obligations.StepStopsOnlyOnUnmapped
  intro s s1 s2 op op2 first second
  rw [← primary_eq_none_iff]
  obtain ⟨empty, halted⟩ | ⟨rfl, unmapped, halted⟩ | ⟨hp, hs, next⟩ := step_answers first second
  · exact ⟨fun _ => ⟨_, halted⟩, fun mapped => absurd empty mapped⟩
  · exact ⟨fun _ => ⟨_, halted⟩, fun _ mapped => by rw [mapped rfl] at unmapped; cases unmapped⟩
  · exact ⟨fun stops => (stops.elim hp hs).elim, fun _ _ => next⟩

/-! ## Halted again (R273) -/

theorem busRead_takeSample_quiet {s : State} {a : Word} (h : QuietRead s a) :
    busRead a s.takeSample = ((busRead a s).1, s.takeSample) :=
  Prod.ext (busRead_fst_takeSample h) (by rw [busRead_quiet (quietRead_takeSample h)])

theorem busRead_takeSample_takeSample_quiet {s : State} {a : Word} (h : QuietRead s a) :
    busRead a s.takeSample.takeSample = ((busRead a s).1, s.takeSample.takeSample) := by
  rw [busRead_takeSample_quiet (quietRead_takeSample h), busRead_takeSample_quiet h]

/-- A Halted step whose two bytes at `PC` are no RTC registers leaves the state as its clock sample made it, and that
state's step is Halted likewise. -/
theorem step_halted_quiet {s after : State} {table : OpcodeTable} {byte : Byte} {addr : Word}
    (halted : step s = .fault (.unmappedOpcode table byte addr after))
    (quiet1 : QuietRead s s.regs.pc) (quiet2 : QuietRead s (s.regs.pc + 1)) :
    after = s.takeSample ∧
      step s.takeSample = .fault (.unmappedOpcode table byte addr s.takeSample.takeSample) := by
  have first := busRead_takeSample_takeSample_quiet quiet1
  have second := busRead_takeSample_takeSample_quiet quiet2
  obtain ⟨empty, h⟩ | ⟨isPrefix, unmapped, h⟩ | ⟨-, -, _, h⟩ :=
    step_answers (busRead_takeSample_quiet quiet1) (busRead_takeSample_quiet quiet2) <;> rw [halted] at h <;> cases h
  · have again := step_of_unmapped_primary (s := s.takeSample) (by rwa [State.takeSample_regs]) empty
    exact ⟨rfl, by rw [again, State.takeSample_regs]⟩
  · rw [isPrefix] at first
    have again := step_of_unmapped_secondary (s := s.takeSample) (by rwa [State.takeSample_regs])
      (by rwa [State.takeSample_regs]) unmapped
    exact ⟨rfl, by rw [again, State.takeSample_regs]⟩

/-- Settles O11: the state after differs from the one before in the clock sample only, and so does the state after the
second step. -/
theorem haltedAgain : Obligations.HaltedAgain := by
  unfold Obligations.HaltedAgain
  intro s after table byte addr halted quiet1 quiet2
  obtain ⟨rfl, again⟩ := step_halted_quiet halted quiet1 quiet2
  exact ⟨_, again, State.takeSample_regs _, State.takeSample_mbc _, State.takeSample_ram _, State.takeSample_cart _,
    State.takeSample_rtc _⟩

end Sys2Proof.Machine

/-! # Reset and invariants (spec/10_state.md, spec/70_reset_and_hazards.md) -/

namespace Sys2Proof.Machine

/-! ## Reset (R30 to R34) -/

theorem State.newEngine_reg (cart : Cartridge) (ioReset : Memory) (t0 : Nat) (r : Reg8) :
    (State.newEngine cart ioReset t0).reg r = 0x00 := by
  cases r <;> rfl

/-- Settles O13: the registers are those that `State.newEngine` lists. -/
theorem resetRegisters : Obligations.ResetRegisters := by
  unfold Obligations.ResetRegisters
  refine ⟨?_, rfl⟩
  rintro cart ioReset t0 s rfl
  exact ⟨rfl, State.newEngine_reg cart ioReset t0, rfl, rfl, rfl⟩

theorem State.newEngine_legal {cart : Cartridge} {ioReset : Memory} (t0 : Nat) (hcart : legalCartridge cart = true)
    (hio : Memory.wf 0x80 ioReset = true) : (State.newEngine cart ioReset t0).Legal where
  flags := by simp [State.newEngine]
  mbc := by
    obtain ⟨_, _, mbcType, _⟩ := cart
    cases mbcType <;> rfl
  ram := (Ram.legal_iff _ _).mpr
    ⟨Memory.wf_nil _, Memory.wf_nil _, Memory.wf_nil _, hio, Memory.wf_nil _, Memory.wf_nil _⟩
  cart := hcart

/-- Settles O14: the arrays but the I/O range are empty, and bank 1 and bank 0 are legal on every controller. -/
theorem resetIsLegal : Obligations.ResetIsLegal := by
  unfold Obligations.ResetIsLegal
  exact ⟨fun _ _ t0 => State.newEngine_legal t0, State.newEngine_legal Config.t0 rfl rfl⟩

/-! ## What every step keeps -/

theorem takeSample_legal {s : State} (h : s.Legal) : s.takeSample.Legal :=
  h.of_same (by rw [State.takeSample_regs]; exact h.flags) s.takeSample_mbc s.takeSample_ram s.takeSample_cart

theorem fetch_keepsGood (s : State) : KeepsGood s (fetch s).2 :=
  .of (Keeps.of_sameStorage (fetch_sameStorage s).1) (by rw [(fetch_sameStorage s).2])

theorem KeepsGood.trans {s t u : State} (h : KeepsGood s t) (k : KeepsGood t u) : KeepsGood s u :=
  ⟨h.keeps.trans k.keeps, k.low ∘ h.low⟩

theorem Carried.mono {P Q : State → Prop} {r : Result} (h : Carried P r) (imp : ∀ t, P t → Q t) : Carried Q r := by
  match r with
  | .next t => exact imp t h
  | .fault (.unmappedOpcode _ _ _ t) => exact imp t h
  | .refused _ => trivial

/-- A step keeps what every instruction keeps, from the state with its clock sample on. -/
theorem step_keepsGood (s : State) : Carried (KeepsGood s.takeSample) (step s) := by
  obtain ⟨-, run⟩ | ⟨i, -, run⟩ := step_cases s
  · rw [run]
    exact fetch_keepsGood s.takeSample
  · rw [run]
    exact (exec_keepsGood i _).mono fun t kept => (fetch_keepsGood s.takeSample).trans kept

theorem KeepsGood.legal {s t : State} (k : KeepsGood s t) (h : s.Legal) : t.Legal :=
  h.keeps k.keeps (k.low h.flags)

/-- Settles O15: the clock sample, the fetch and the instruction each keep a legal state legal. -/
theorem stepKeepsLegal : Obligations.StepKeepsLegal := by
  unfold Obligations.StepKeepsLegal
  intro s legal
  have kept : Carried State.Legal (step s) := (step_keepsGood s).mono fun t k => k.legal (takeSample_legal legal)
  refine ⟨fun t run => ?_, fun table byte addr after run => ?_⟩ <;> rw [run] at kept <;> exact kept

theorem takeSample_of_queued {s : State} {now : Nat} {later : List Nat} (h : s.clock.samples = now :: later) :
    s.takeSample.clock.now = now ∧ s.takeSample.clock.samples = later := by
  simp only [State.takeSample, h, and_self]

theorem takeSample_of_empty {s : State} (h : s.clock.samples = []) : s.clock.now ≤ s.takeSample.clock.now := by
  simp only [State.takeSample, h, Nat.le_add_right]

/-- Settles O16: neither the fetch nor an instruction touches the cartridge or the clock, so both are those of the
sample. -/
theorem stepKeepsCartridgeTakesOneSample : Obligations.StepKeepsCartridgeTakesOneSample := by
  unfold Obligations.StepKeepsCartridgeTakesOneSample
  intro s t run
  have kept := step_keepsGood s
  rw [run] at kept
  obtain ⟨cart, clock, -, -⟩ := kept.keeps
  refine ⟨cart.trans s.takeSample_cart, clock, fun empty => ?_, fun now later queued => ?_⟩ <;> rw [clock]
  · exact takeSample_of_empty empty
  · exact takeSample_of_queued queued

end Sys2Proof.Machine

/-! # The frames of the register updates -/

namespace Sys2Proof.Machine

theorem SameOutside.refl (s : State) : SameOutside s s := ⟨SameStorage.refl s, rfl⟩

theorem SameRegsBut.refl (rs : List Reg8) (s : State) : SameRegsBut rs s s := ⟨fun _ _ => rfl, rfl, rfl⟩

theorem SameRegsBut.congr {rs : List Reg8} {s t u : State} (h : SameRegsBut rs s t) (regs : ∀ r, u.reg r = t.reg r)
    (sp : u.regs.sp = t.regs.sp) (ime : u.regs.ime = t.regs.ime) : SameRegsBut rs s u :=
  ⟨fun r hr => (regs r).trans (h.1 r hr), sp.trans h.2.1, ime.trans h.2.2⟩

/-- What the frames say of `t` they say of `t` with another `PC`. -/
theorem SameOutside.advance {s t : State} (h : SameOutside s t) (n : Nat) : SameOutside s (t.advance n) := h

theorem SameRegsBut.advance {rs : List Reg8} {s t : State} (h : SameRegsBut rs s t) (n : Nat) :
    SameRegsBut rs s (t.advance n) :=
  h.congr (t.advance_reg n) rfl rfl

theorem SameRegsBut.of_regs {rs : List Reg8} {s s1 t : State} (h : SameRegsBut rs s1 t) (regs : s1.regs = s.regs) :
    SameRegsBut rs s t := by
  obtain ⟨others, sp, ime⟩ := h
  exact ⟨fun r hr => (others r hr).trans (State.reg_congr regs r), by rw [sp, regs], by rw [ime, regs]⟩

theorem sameRegsBut_of_eq {s t : State} (h : t.regs = s.regs) : SameRegsBut [] s t :=
  ⟨fun r _ => State.reg_congr h r, by rw [h], by rw [h]⟩

theorem setReg_sameRegsBut (s : State) (d : Reg8) (v : Byte) : SameRegsBut [d] s (s.setReg d v) :=
  ⟨fun r hr => State.setReg_reg_other s v (by simpa using hr), s.setReg_regs_sp d v, s.setReg_regs_ime d v⟩

theorem setReg_sameOutside (s : State) (d : Reg8) (v : Byte) : SameOutside s (s.setReg d v) :=
  ⟨setReg_sameStorage s d v, s.setReg_rtc d v⟩

theorem setZNH_sameOutside (s : State) (z n h : Bool) : SameOutside s (s.setZNH z n h) := ⟨⟨rfl, rfl, rfl, rfl⟩, rfl⟩

theorem setZNHC_sameOutside (s : State) (z n h c : Bool) : SameOutside s (s.setZNHC z n h c) :=
  ⟨⟨rfl, rfl, rfl, rfl⟩, rfl⟩

theorem setPair_sameRegsBut (s : State) (p : Pair) (w : Word) :
    SameRegsBut [Pair.hiReg p, Pair.loReg p] s (s.setPair p w) := by
  refine ⟨fun r hr => ?_, s.setPair_regs_sp p w, s.setPair_regs_ime p w⟩
  obtain ⟨hi, lo⟩ : r ≠ Pair.hiReg p ∧ r ≠ Pair.loReg p := by simpa using hr
  rw [State.setPair_reg, if_neg lo, if_neg hi]

theorem setPair_sameOutside (s : State) (p : Pair) (w : Word) : SameOutside s (s.setPair p w) :=
  ⟨⟨s.setPair_mbc p w, s.setPair_ram p w, s.setPair_cart p w, s.setPair_clock p w⟩, s.setPair_rtc p w⟩

theorem setPair_hiReg (s : State) (p : Pair) (w : Word) : (s.setPair p w).reg (Pair.hiReg p) = hiByte w := by
  cases p <;> rfl

theorem setPair_loReg (s : State) (p : Pair) (w : Word) : (s.setPair p w).reg (Pair.loReg p) = loByte w := by
  cases p <;> rfl

theorem regs_of_busRead {a : Word} {s s1 : State} {v : Byte} (h : busRead a s = (v, s1)) : s1.regs = s.regs := by
  rw [← busRead_regs a s, h]

end Sys2Proof.Machine

/-! # Loads and stores (spec/40_nop_loads.md) -/

namespace Sys2Proof.Machine

/-- Settles O21: the load is one register update. -/
theorem loadRegister : Obligations.LoadRegister := by
  unfold Obligations.LoadRegister
  intro d r s
  refine ⟨(s.setReg d (s.reg r)).advance 1, exec_ofLdReg s d r, by simp, ?regs, by simp, by simp, ?outside⟩
  case regs => exact (setReg_sameRegsBut s d _).advance 1
  case outside => exact (setReg_sameOutside s d _).advance 1

end Sys2Proof.Machine

namespace Sys2Proof

open Machine

/-- Settles O22: a bus read, and one register update of the state that it leaves. -/
theorem loadFromHL : Obligations.LoadFromHL := by
  unfold Obligations.LoadFromHL
  intro d s s1 v read
  have regs := regs_of_busRead read
  refine ⟨(s1.setReg d v).advance 1, ?run, by simp, ?regs, by simp [regs], by simp [regs], ?outside⟩
  case run => rw [exec_ofLdFromHL, loadFromHL_eq, read]
  case regs => exact ((setReg_sameRegsBut s1 d v).advance 1).of_regs regs
  case outside => exact (setReg_sameOutside s1 d v).advance 1

/-- Settles O23: one bus write, which leaves the registers. -/
theorem storeToHL : Obligations.StoreToHL := by
  unfold Obligations.StoreToHL
  intro r s
  refine ⟨(busWrite s.hl (s.reg r) s).advance 1, exec_ofLdToHL s r, ?regs, by simp, by simp, ?outside⟩
  case regs => exact (sameRegsBut_of_eq (busWrite_regs _ _ s)).advance 1
  case outside => exact (SameOutside.refl _).advance 1

end Sys2Proof

namespace Sys2Proof.Machine

/-- Settles O24: one operand write. -/
theorem loadImmediate : Obligations.LoadImmediate := by
  unfold Obligations.LoadImmediate
  intro o n s
  refine ⟨(writeOpnd o n s).advance 2, exec_ofLdImm s o n, ?gets, by simp, by simp⟩
  case gets => exact opndGets_of_writeOpnd (State.advance_sameOutside _ 2) (State.advance_reg _ 2) (by simp) (by simp)

/-- Settles O25: the two halves of the word go to the two registers of the pair, and `SP` is a register of its own. -/
theorem loadPairImmediate : Obligations.LoadPairImmediate := by
  unfold Obligations.LoadPairImmediate
  refine ⟨fun p w s => ?_, fun w s => ?_⟩
  · refine ⟨(s.setPair p w).advance 3, exec_ofLdPair s p w, ?hi, ?lo, ?regs, by simp, by simp, ?outside⟩
    case hi => rw [State.advance_reg, setPair_hiReg, hiByte_toNat]
    case lo => rw [State.advance_reg, setPair_loReg, loByte_toNat]
    case regs => exact (setPair_sameRegsBut s p w).advance 3
    case outside => exact (setPair_sameOutside s p w).advance 3
  · exact ⟨(s.setSP w).advance 3, rfl, rfl, by simp, rfl, rfl, rfl, ⟨⟨rfl, rfl, rfl, rfl⟩, rfl⟩⟩

/-- Settles O26: a bus read and an update of `A`, or one bus write of `A`. -/
theorem absoluteLoadAndStore : Obligations.AbsoluteLoadAndStore := by
  unfold Obligations.AbsoluteLoadAndStore
  refine ⟨fun x s s1 v read => ?_, fun x s => ?_⟩
  · have regs := regs_of_busRead read
    refine ⟨(s1.setReg .A v).advance 3, ?run, by simp, ?regs, by simp [regs], by simp [regs], ?outside⟩
    case run =>
      show loadAbs x s = _
      rw [loadAbs_eq, read]
    case regs => exact ((setReg_sameRegsBut s1 .A v).advance 3).of_regs regs
    case outside => exact (setReg_sameOutside s1 .A v).advance 3
  · refine ⟨(busWrite x (s.reg .A) s).advance 3, rfl, ?regs, by simp, by simp, ?outside⟩
    case regs => exact (sameRegsBut_of_eq (busWrite_regs _ _ s)).advance 3
    case outside => exact (SameOutside.refl _).advance 3

end Sys2Proof.Machine

/-! # Control transfer (spec/41_control_transfer.md) -/

namespace Sys2Proof.Machine

/-! ## Targets (R180, R187) -/

theorem condIs_iff_holds (cc : Cond) (s : State) : CondIs cc s ↔ s.holds cc = true := by
  cases cc <;> simp [CondIs, State.holds]

/-- The address that a relative jump reaches: the signed offset counts from the address after its two bytes. -/
theorem relativeTarget_toNat (pc : Word) (e : Byte) :
    ((pc + 2 + sext16 e).toNat : Int) = ((pc.toNat : Int) + 2 + e.toInt) % 0x10000 := by
  have hext : ((sext16 e).toNat : Int) = e.toInt % 0x10000 := by
    rw [sext16, BitVec.signExtend, BitVec.toNat_ofInt]
    omega
  have two : (2 : Word).toNat = 2 := rfl
  rw [BitVec.toNat_add, BitVec.toNat_add, two]
  omega

theorem fallThrough_toNat (pc : Word) : (pc + 2).toNat = (pc.toNat + 2) % 0x10000 := by
  rw [BitVec.toNat_add]
  rfl

theorem returnOp_of_popReads {s s2 : State} {w : Word} (h : PopReads s s2 w) :
    returnOp s = .next ((s2.setSP (s.regs.sp + 2)).jump w) := by
  rw [returnOp_eq, pop16_of_popReads h]

theorem rstTarget_toNat (y : Fin 8) : (BitVec.ofNat 16 (8 * y.val)).toNat = 8 * y.val := by
  have := y.isLt
  rw [BitVec.toNat_ofNat]
  omega

/-- Settles O27: each branch is a write of `PC`, with the target that `relativeTarget_toNat` computes for the relative
ones. -/
theorem branchTargets : Obligations.BranchTargets := by
  unfold Obligations.BranchTargets
  refine ⟨fun x s => ⟨_, rfl, rfl⟩, fun x s => ⟨_, rfl, rfl⟩, fun s s2 w reads => ?ret, fun y s => ?rst, fun e s => ?jr,
    fun cc e s holds => ?taken, fun cc e s fails => ?untaken⟩
  case ret => exact ⟨_, returnOp_of_popReads reads, rfl⟩
  case rst => exact ⟨_, exec_ofRst s y, rstTarget_toNat y⟩
  case jr => exact ⟨_, rfl, relativeTarget_toNat _ _⟩
  case taken =>
    refine ⟨_, (exec_ofJr s cc e).trans (jumpRel_eq s _ e), ?_⟩
    rw [State.jump_regs_pc, if_pos ((condIs_iff_holds cc s).mp holds), relativeTarget_toNat]
  case untaken =>
    refine ⟨_, (exec_ofJr s cc e).trans (jumpRel_eq s _ e), ?_⟩
    rw [State.jump_regs_pc, if_neg (mt (condIs_iff_holds cc s).mpr fails), fallThrough_toNat]

/-! ## Frames (R181 to R186) -/

theorem jump_sameRegsBut (s : State) (w : Word) : SameRegsBut [] s (s.jump w) :=
  ⟨fun r _ => s.jump_reg w r, rfl, rfl⟩

theorem jump_sameOutside (s : State) (w : Word) : SameOutside s (s.jump w) := ⟨⟨rfl, rfl, rfl, rfl⟩, rfl⟩

/-- Settles O28: each of them is one `State.jump`, taken or not. -/
theorem jumpsChangeOnlyPc : Obligations.JumpsChangeOnlyPc := by
  unfold Obligations.JumpsChangeOnlyPc
  intro i s form
  obtain ⟨w, run⟩ : ∃ w, exec i s = .next (s.jump w) := by
    obtain ⟨x, rfl⟩ | ⟨e, rfl⟩ | ⟨cc, e, rfl⟩ := form
    · exact ⟨x, rfl⟩
    · exact ⟨_, rfl⟩
    · exact ⟨_, (exec_ofJr s cc e).trans (jumpRel_eq s _ e)⟩
  exact ⟨s.jump w, run, jump_sameRegsBut s w, rfl, jump_sameOutside s w⟩

theorem exec_ofRst_of_target {y : Fin 8} {target : Word} (s : State) (h : target.toNat = 8 * y.val) :
    exec (Instr.ofRst y) s = call 1 target s := by
  obtain rfl : target = BitVec.ofNat 16 (8 * y.val) := BitVec.eq_of_toNat_eq (by rw [h, rstTarget_toNat])
  exact exec_ofRst s y

/-- Settles O29: both are `call`, a push of the next instruction's address and a jump. -/
theorem callAndRstPushReturn : Obligations.CallAndRstPushReturn := by
  unfold Obligations.CallAndRstPushReturn
  intro i n target s form
  have run : exec i s = .next ((push16 (s.regs.pc + n) s).jump target) := by
    obtain ⟨rfl, rfl⟩ | ⟨y, rfl, rfl, isTarget⟩ := form
    · rfl
    · exact exec_ofRst_of_target s isTarget
  refine ⟨_, run, rfl, ?sp, fun r => ?regs, ?ime, ?flags, ?outside⟩
  case sp => simp
  case regs => simp
  case ime => simp
  case flags => simp
  case outside => exact (push16_sameOutside _ s).trans (jump_sameOutside _ target)

/-- Settles O30: the pop gives the word and moves `SP`, and the jump writes it to `PC`. -/
theorem retPops : Obligations.RetPops := by
  unfold Obligations.RetPops
  refine ⟨rfl, fun s s2 w reads => ?_⟩
  have regs := regs_of_popReads reads
  refine ⟨_, returnOp_of_popReads reads, rfl, rfl, fun r => ?regs, ?ime, ?flags, ⟨⟨rfl, rfl, rfl, rfl⟩, rfl⟩⟩
  case regs => rw [State.jump_reg, State.setSP_reg, State.reg_congr regs]
  case ime => rw [State.jump_regs_ime, State.setSP_regs_ime, regs]
  case flags => rw [State.jump_regs_f, State.setSP_regs_f, regs]

end Sys2Proof.Machine

/-! # The stack (spec/42_stack.md) -/

namespace Sys2Proof.Machine

/-! ## Pushes (R202, R203) -/

/-- What a push of the word `w` leaves of the state: `SP` two lower, `PC` one higher, the two bus writes outside. -/
theorem pushWord_frame (w : Word) (s : State) :
    ∃ t, pushWord w s = .next t ∧ t.regs = { s.regs with sp := s.regs.sp - 2, pc := s.regs.pc + 1 } ∧
      (∀ r, t.reg r = s.reg r) ∧ SameOutside (afterPush w s) t := by
  refine ⟨_, rfl, ?_, fun r => ?_, (push16_sameOutside w s).advance 1⟩
  · simp [State.advance, State.jump]
  · rw [State.advance_reg, push16_reg]

/-- Where the two stack bytes are plain storage, they read back in every state that the two bus writes leave. -/
theorem bytes_of_pushed {s t : State} {w : Word} (legal : s.Legal) (hi : PlainStorage s (s.regs.sp - 1))
    (lo : PlainStorage s (s.regs.sp - 2)) (outside : SameOutside (afterPush w s) t) :
    (busRead (s.regs.sp - 1) t).1 = hiByte w ∧ (busRead (s.regs.sp - 2) t).1 = loByte w := by
  rw [busRead_fst_of_sameOutside outside, busRead_fst_of_sameOutside outside]
  exact bytes_afterPush legal hi lo (route_stack_ne hi lo) w

/-- Settles O31: both are `pushWord` of the word of their two registers. -/
theorem pushStoresWord : Obligations.PushStoresWord := by
  unfold Obligations.PushStoresWord
  intro i hi lo s form
  have run : exec i s = pushWord (joinBytes hi lo) s := by
    obtain ⟨p, rfl, rfl, rfl⟩ | ⟨rfl, rfl, rfl⟩ := form
    · exact exec_ofPush s p
    · rfl
  obtain ⟨t, next, regs, reg, outside⟩ := pushWord_frame (joinBytes hi lo) s
  refine ⟨t, run.trans next, by rw [regs], reg, by rw [regs], by rw [regs], by rw [regs], outside, ?_⟩
  intro legal plainHi plainLo
  simpa using bytes_of_pushed legal plainHi plainLo outside

/-! ## Pops (R204, R205) -/

/-- Settles O32: the word of the two reads, written to the pair as its two bytes. -/
theorem popLoadsPair : Obligations.PopLoadsPair := by
  unfold Obligations.PopLoadsPair
  intro p s s2 w reads
  have regs := regs_of_popReads reads
  refine ⟨((s2.setSP (s.regs.sp + 2)).setPair p w).advance 1, ?run, ?hi, ?lo, fun r hr => ?others, by simp,
    by simp [regs], by simp [regs], by simp [regs], ?outside⟩
  case run => rw [exec_ofPop, popPair_eq, pop16_of_popReads reads]
  case hi => rw [State.advance_reg, setPair_hiReg, hiByte_toNat]
  case lo => rw [State.advance_reg, setPair_loReg, loByte_toNat]
  case others =>
    rw [State.advance_reg, (setPair_sameRegsBut _ p w).1 r hr, State.setSP_reg, State.reg_congr regs]
  case outside => exact (setPair_sameOutside (s2.setSP (s.regs.sp + 2)) p w).advance 1

/-- The bits of `F` after a write of `AF`: those of the word, but for the low nibble (R13). -/
theorem maskedLoByte_getLsbD (w : Word) {k : Nat} (h4 : 4 ≤ k) (h8 : k < 8) :
    (loByte w &&& 0xF0).getLsbD k = w.getLsbD k := by
  have mask : (0xF0 : Byte).getLsbD k = true := by
    interval_cases k <;> rfl
  rw [BitVec.getLsbD_and, mask, Bool.and_true, loByte, BitVec.getLsbD_extractLsb']
  simp [h8]

/-- Settles O33: the word of the two reads, written to `AF` with the low nibble masked. -/
theorem popAFMasksFlags : Obligations.PopAFMasksFlags := by
  unfold Obligations.PopAFMasksFlags
  intro s s2 w reads
  have regs := regs_of_popReads reads
  refine ⟨((s2.setSP (s.regs.sp + 2)).setAF w).advance 1, ?run, ?a, ?f, maskedLoByte_getLsbD w (by decide) (by decide),
    maskedLoByte_getLsbD w (by decide) (by decide), maskedLoByte_getLsbD w (by decide) (by decide),
    maskedLoByte_getLsbD w (by decide) (by decide), fun r hr => ?others, rfl, by simp [regs], by simp [regs], ?outside⟩
  case run =>
    show popAF s = _
    rw [popAF_eq, pop16_of_popReads reads]
  case a => rw [State.advance_reg, State.setAF_reg, if_pos rfl, hiByte_toNat]
  case f => rw [State.advance_regs_f, State.setAF_regs_f, and_highNibble_toNat, loByte_toNat]
  case others => rw [State.advance_reg, State.setAF_reg, if_neg hr, State.setSP_reg, State.reg_congr regs]
  case outside => exact ⟨⟨rfl, rfl, rfl, rfl⟩, rfl⟩

/-! ## The round trip (R206) -/

theorem and_highNibble_of_low_zero {b : Byte} (h : b &&& 0x0F = 0) : b &&& 0xF0 = b :=
  calc b &&& 0xF0
    _ = b &&& 0xF0 ||| b &&& 0x0F := by rw [h]; exact BitVec.or_zero.symm
    _ = b &&& (0xF0 ||| 0x0F) := BitVec.and_or_distrib_left.symm
    _ = b := BitVec.and_allOnes

section
variable {s t : State} {w : Word} (legal : s.Legal) (hi : PlainStorage s (s.regs.sp - 1))
  (lo : PlainStorage s (s.regs.sp - 2))
include legal hi lo

/-- A pop after a push of `w`, in plain storage, gives `w`. -/
theorem pop16_of_pushed (sp : t.regs.sp = s.regs.sp - 2) (outside : SameOutside (afterPush w s) t) :
    (pop16 t).1 = w := by
  obtain ⟨readHi, readLo⟩ := bytes_of_pushed legal hi lo outside
  have next : s.regs.sp - 2 + 1 = s.regs.sp - 1 := by bv_omega
  rw [pop16_fst, sp, next, readHi, readLo, joinBytes_hi_lo]

theorem pop_after_push (p : Pair) : ∃ t u, exec (Instr.ofPush p) s = .next t ∧ exec (Instr.ofPop p) t = .next u ∧
    SameRegsBut [] s u ∧ u.regs.f = s.regs.f := by
  obtain ⟨t, push, regs, reg, outside⟩ := pushWord_frame (s.pair p) s
  have popped : (pop16 t).1 = s.pair p := pop16_of_pushed legal hi lo (by rw [regs]) outside
  have pop : exec (Instr.ofPop p) t = .next (((pop16 t).2.setPair p (s.pair p)).advance 1) := by
    rw [exec_ofPop, popPair_eq, popped]
  refine ⟨t, _, (exec_ofPush s p).trans push, pop, ⟨fun r _ => ?_, by simp [regs], by simp [regs]⟩, by simp [regs]⟩
  rw [State.advance_reg, State.setPair_reg, State.pair, hiByte_joinBytes, loByte_joinBytes, pop16_reg, reg]
  split_ifs with isLo isHi
  · rw [isLo]
  · rw [isHi]
  · rfl

theorem popAF_after_pushAF : ∃ t u, exec .push_AF s = .next t ∧ exec .pop_AF t = .next u ∧
    SameRegsBut [] s u ∧ u.regs.f = s.regs.f := by
  obtain ⟨t, push, regs, reg, outside⟩ := pushWord_frame s.af s
  have popped : (pop16 t).1 = s.af := pop16_of_pushed legal hi lo (by rw [regs]) outside
  have pop : exec .pop_AF t = .next (((pop16 t).2.setAF s.af).advance 1) := by
    show popAF t = _
    rw [popAF_eq, popped]
  refine ⟨t, _, push, pop, ⟨fun r _ => ?_, by simp [regs], by simp [regs]⟩, ?_⟩
  · rw [State.advance_reg, State.setAF_reg, State.af, hiByte_joinBytes, pop16_reg, reg]
    split_ifs with isA
    · rw [isA]; rfl
    · rfl
  · rw [State.advance_regs_f, State.setAF_regs_f, State.af, loByte_joinBytes]
    exact and_highNibble_of_low_zero legal.flags

theorem ret_after_call (x : Word) : ∃ t u, exec (.call_a16 x) s = .next t ∧ exec .ret t = .next u ∧
    SameRegsBut [] s u ∧ u.regs.pc = s.regs.pc + 3 := by
  have outside := (push16_sameOutside (s.regs.pc + 3) s).trans (jump_sameOutside _ x)
  have popped := pop16_of_pushed legal hi lo (by simp) outside
  have pop := returnOp_eq ((push16 (s.regs.pc + 3) s).jump x)
  rw [popped] at pop
  exact ⟨_, _, rfl, pop, ⟨fun r _ => by simp, by simp, by simp⟩, rfl⟩

end

/-- Settles O34: each pop reads back the word of its push. -/
theorem stackRoundTrip : Obligations.StackRoundTrip := by
  unfold Obligations.StackRoundTrip
  intro s legal hi lo
  exact ⟨pop_after_push legal hi lo, popAF_after_pushAF legal hi lo, ret_after_call legal hi lo⟩

end Sys2Proof.Machine

/-! # The interrupt enable (spec/45_system.md) -/

namespace Sys2Proof.Machine

/-- Settles O45: both are one write of `IME`. -/
theorem interruptEnableWriters : Obligations.InterruptEnableWriters := by
  unfold Obligations.InterruptEnableWriters
  intro i b s form
  have run : exec i s = .next ((s.setIME b).advance 1) := by
    obtain ⟨rfl, rfl⟩ | ⟨rfl, rfl⟩ := form <;> rfl
  exact ⟨_, run, rfl, fun r => by simp, rfl, rfl, rfl, ⟨⟨rfl, rfl, rfl, rfl⟩, rfl⟩⟩

end Sys2Proof.Machine

/-! # The 8-bit ALU (spec/43_alu8.md) -/

namespace Sys2Proof.Machine

/-! ## INC and DEC (R211 to R214) -/

theorem incByte_toNat (v : Byte) : (incByte v).toNat = (v.toNat + 1) % 256 := addByte_toNat v 1

theorem decByte_toNat (v : Byte) : (decByte v).toNat = (v.toNat + 255) % 256 := subByte_toNat v 1

theorem decide_eq_zero_iff (b : Byte) : decide (b = 0) = true ↔ b.toNat = 0 :=
  decide_eq_true_iff.trans (byte_eq_zero_iff b)

theorem writeOpnd_f_of_reads {o : Opnd8} {s s1 : State} {v : Byte} (reads : OpndReads o s s1 v) (w : Byte) :
    (writeOpnd o w s1).regs.f = s.regs.f := by
  rw [writeOpnd_regs_f, regs_of_opndReads reads]

/-- The operand's new byte `w` and the flags Z, N and H, written after the read of `v`. -/
theorem writeOpnd_znh {o : Opnd8} {s s1 : State} {v : Byte} (reads : OpndReads o s s1 v) (w : Byte) {z n h : Bool}
    {Z N H : Prop} (hz : z = true ↔ Z) (hn : n = true ↔ N) (hh : h = true ↔ H) :
    OpndGets o w s1 (((writeOpnd o w s1).setZNH z n h).advance 1) ∧
      FlagsAre s (((writeOpnd o w s1).setZNH z n h).advance 1) Z N H (s.flagC = true) ∧
      (((writeOpnd o w s1).setZNH z n h).advance 1).regs.pc = s.regs.pc + 1 := by
  refine ⟨?gets, ?flags, ?pc⟩
  case gets =>
    exact opndGets_of_writeOpnd ((setZNH_sameOutside _ z n h).advance 1) (by simp) (by simp) (by simp)
  case flags => exact flagsAre_advance 1 (flagsAre_setZNH hz hn hh (writeOpnd_f_of_reads reads w))
  case pc => simp [regs_of_opndReads reads]

/-- Settles O35: the byte read plus one goes back to the operand, and Z, N and H are written. -/
theorem incrementResult : Obligations.IncrementResult := by
  unfold Obligations.IncrementResult
  intro o s s1 v reads
  have run : exec (Instr.ofInc o) s = .next (((writeOpnd o (incByte v) s1).setIncFlags v).advance 1) := by
    rw [exec_ofInc, incOpnd_eq, readOpnd_of_opndReads reads]
  exact ⟨incByte v, _, run, incByte_toNat v,
    writeOpnd_znh reads (incByte v) (decide_eq_zero_iff _) Bool.false_eq_true.to_iff decide_eq_true_iff⟩

/-- Settles O36: the byte read minus one goes back to the operand, and Z, N and H are written. -/
theorem decrementResult : Obligations.DecrementResult := by
  unfold Obligations.DecrementResult
  intro o s s1 v reads
  have run : exec (Instr.ofDec o) s = .next (((writeOpnd o (decByte v) s1).setDecFlags v).advance 1) := by
    rw [exec_ofDec, decOpnd_eq, readOpnd_of_opndReads reads]
  exact ⟨decByte v, _, run, decByte_toNat v,
    writeOpnd_znh reads (decByte v) (decide_eq_zero_iff _) (iff_of_true rfl trivial) decide_eq_true_iff⟩

/-! ## The operations on `A` (R215 to R226) -/

theorem exec_of_aluForm {op : AluOp} {i : Instr} {n : Nat} {s s1 : State} {b : Byte} (form : AluForm op i n s s1 b) :
    exec i s = .next ((aluOnA op b s1).advance n) ∧ s1.regs = s.regs := by
  obtain ⟨o, rfl, rfl, reads⟩ | ⟨rfl, rfl, rfl⟩ := form
  · exact ⟨by rw [exec_ofAlu, aluOpnd_eq, readOpnd_of_opndReads reads], regs_of_opndReads reads⟩
  · exact ⟨exec_ofAluImm s1 op b, rfl⟩

/-- The three operations that write `A`: the result `r` and the four flags, and nothing else but `PC`. -/
theorem aluForm_writes_A {op : AluOp} {i : Instr} {len : Nat} {s s1 : State} {b r : Byte} {z n h c : Bool}
    {Z N H C : Prop} (form : AluForm op i len s s1 b) (writes : aluOnA op b s1 = (s1.setReg .A r).setZNHC z n h c)
    (hz : z = true ↔ Z) (hn : n = true ↔ N) (hh : h = true ↔ H) (hc : c = true ↔ C) :
    ∃ t, exec i s = .next t ∧ t.reg .A = r ∧ SameRegsBut [.A] s t ∧ FlagsAre s t Z N H C ∧
      t.regs.pc = s.regs.pc + BitVec.ofNat 16 len ∧ SameOutside s1 t := by
  obtain ⟨run, regs⟩ := exec_of_aluForm form
  rw [writes] at run
  refine ⟨_, run, by simp, ?others, ?flags, by simp [regs], ?outside⟩
  case others =>
    have frame := (setReg_sameRegsBut s1 .A r).congr (State.setZNHC_reg _ z n h c) rfl rfl
    exact (frame.advance len).of_regs regs
  case flags => exact flagsAre_advance len (flagsAre_setZNHC hz hn hh (by rw [State.setReg_regs_f, regs]) hc)
  case outside => exact setReg_sameOutside s1 .A r

theorem reg_A_of_aluForm {op : AluOp} {i : Instr} {n : Nat} {s s1 : State} {b : Byte} (form : AluForm op i n s s1 b) :
    s1.reg .A = s.reg .A :=
  State.reg_congr (exec_of_aluForm form).2 .A

/-- Settles O37: `A` and the flags of `ADD`. -/
theorem addResult : Obligations.AddResult := by
  unfold Obligations.AddResult
  intro i n s s1 b form
  have a := reg_A_of_aluForm form
  rw [← a, ← addByte_toNat]
  obtain ⟨t, run, result, rest⟩ := aluForm_writes_A form rfl (decide_eq_zero_iff _) Bool.false_eq_true.to_iff
    decide_eq_true_iff decide_eq_true_iff
  exact ⟨t, run, congrArg BitVec.toNat result, rest⟩

/-- Settles O38: `A` and the flags of `SUB`. -/
theorem subtractResult : Obligations.SubtractResult := by
  unfold Obligations.SubtractResult
  intro i n s s1 b form
  have a := reg_A_of_aluForm form
  rw [← a, ← subByte_toNat]
  obtain ⟨t, run, result, rest⟩ := aluForm_writes_A form rfl decide_eq_true_iff (iff_of_true rfl trivial)
    decide_eq_true_iff decide_eq_true_iff
  exact ⟨t, run, congrArg BitVec.toNat result, rest⟩

/-- Settles O40: `A` and the flags of `XOR`, where a zero result means equal operands. -/
theorem xorResult : Obligations.XorResult := by
  unfold Obligations.XorResult
  intro i n s s1 b form
  have a := reg_A_of_aluForm form
  rw [← a]
  obtain ⟨t, run, result, rest⟩ := aluForm_writes_A form rfl (decide_eq_true_iff.trans BitVec.xor_eq_zero_iff)
    Bool.false_eq_true.to_iff Bool.false_eq_true.to_iff Bool.false_eq_true.to_iff
  exact ⟨t, run, fun k _ => by rw [result, BitVec.getLsbD_xor], rest⟩

/-- Settles O39: the flags of `SUB`, with no register written. -/
theorem compareResult : Obligations.CompareResult := by
  unfold Obligations.CompareResult
  intro i n s s1 b form
  obtain ⟨run, regs⟩ := exec_of_aluForm form
  rw [← reg_A_of_aluForm form]
  refine ⟨(s1.setSubFlags (s1.reg .A) b).advance n, run, ?others, ?flags, by simp [regs], ?outside⟩
  case others => exact SameRegsBut.of_regs ⟨fun q _ => by simp, by simp, by simp⟩ regs
  case flags =>
    exact flagsAre_advance n (flagsAre_setZNHC decide_eq_true_iff (iff_of_true rfl trivial) decide_eq_true_iff
      (by rw [regs]) decide_eq_true_iff)
  case outside => exact (setZNHC_sameOutside _ _ _ _ _).advance n

/-! ## CPL (R227) -/

/-- Settles O41: the complement goes to `A`, and N and H are set by masks. -/
theorem complementResult : Obligations.ComplementResult := by
  unfold Obligations.ComplementResult
  refine ⟨rfl, fun s => ⟨_, rfl, ?result, ?others, ⟨?z, ?n, ?h, ?c, ?low⟩, by simp, ?outside⟩⟩
  case result => simp
  case others => exact ((setReg_sameRegsBut s .A (~~~s.reg .A)).congr (State.setCplFlags_reg _) rfl rfl).advance 1
  case z => simp
  case n => simp
  case h => simp
  case c => simp
  case low => simpa using State.setCplFlags_lowNibble (s.setReg .A _)
  case outside => exact setReg_sameOutside s .A (~~~s.reg .A)

end Sys2Proof.Machine

/-! # Rotates and shifts (spec/44_rotate_shift.md) -/

namespace Sys2Proof.Machine

/-! ## The operations in numbers (R230) -/

/-- A shift left that takes `b` in at the bottom. -/
theorem shiftLeft_putBit_toNat (v : Byte) (b : Bool) : (putBit 0 b (v <<< 1)).toNat = v.toNat * 2 % 256 + b.toNat := by
  have appended : putBit 0 b (v <<< 1) = (v.setWidth 7).concat b := by
    refine byte_ext fun i hi => ?_
    rw [putBit_getLsbD 0 b _ i hi, BitVec.getLsbD_concat]
    rcases i with _ | i
    · rfl
    · have low : i < 7 := by omega
      simpa [low] using fun _ => hi
  rw [appended, BitVec.toNat_concat, BitVec.toNat_setWidth]
  omega

/-- A shift right that takes `b` in at the top. -/
theorem shiftRight_putBit_toNat (v : Byte) (b : Bool) : (putBit 7 b (v >>> 1)).toNat = v.toNat / 2 + b.toNat * 128 := by
  have prepended : putBit 7 b (v >>> 1) = BitVec.cons b (v.extractLsb' 1 7) := by
    refine byte_ext fun i hi => ?_
    rw [putBit_getLsbD 7 b _ i hi, BitVec.getLsbD_cons]
    split_ifs with top
    · rfl
    · have low : i < 7 := by omega
      simp [low]
  have := v.isLt
  rw [prepended, BitVec.toNat_cons', BitVec.extractLsb'_toNat, Nat.shiftLeft_eq, Nat.shiftRight_eq_div_pow]
  omega

theorem topBit_toNat (v : Byte) : (v.getLsbD 7).toNat = v.toNat / 128 := by
  have := v.isLt
  rw [BitVec.getLsbD, Nat.toNat_testBit]
  omega

theorem bottomBit_toNat (v : Byte) : (v.getLsbD 0).toNat = v.toNat % 2 := by
  rw [BitVec.getLsbD, Nat.toNat_testBit]
  omega

/-- The result and the bit shifted out are those of the table in R230. -/
theorem rotIs_rotResult (k : RotKind) (v : Byte) (cin : Bool) :
    RotIs k v.toNat cin.toNat (rotResult k v cin).toNat (rotOut k v).toNat := by
  cases k
  case rlc => exact ⟨topBit_toNat v, by rw [rotResult, shiftLeft_putBit_toNat, topBit_toNat]⟩
  case rrc => exact ⟨bottomBit_toNat v, by rw [rotResult, shiftRight_putBit_toNat, bottomBit_toNat]⟩
  case rl => exact ⟨topBit_toNat v, shiftLeft_putBit_toNat v cin⟩
  case rr => exact ⟨bottomBit_toNat v, shiftRight_putBit_toNat v cin⟩
  case sla => exact ⟨topBit_toNat v, by rw [rotResult, BitVec.toNat_shiftLeft, Nat.shiftLeft_eq]⟩
  case sra => exact ⟨bottomBit_toNat v, by rw [rotResult, shiftRight_putBit_toNat, topBit_toNat]⟩
  case srl => exact ⟨bottomBit_toNat v, by rw [rotResult, BitVec.toNat_ushiftRight, Nat.shiftRight_eq_div_pow]⟩

/-! ## The instructions (R231 to R249) -/

/-- Settles O42: the operand read gives the byte, and its rotation goes back. -/
theorem rotateResult : Obligations.RotateResult := by
  unfold Obligations.RotateResult
  intro k o s s1 v reads
  refine ⟨rotResult k v s.flagC, rotOut k v,
    ((writeOpnd o (rotResult k v s.flagC) s1).setRotFlags (rotResult k v s.flagC) (rotOut k v)).advance 2,
    ?run, rotIs_rotResult k v s.flagC, ?gets, ?flags, ?pc⟩
  case run => rw [exec_ofRot, rotateOpnd_eq, readOpnd_of_opndReads reads]
  case gets => exact opndGets_of_writeOpnd ((setZNHC_sameOutside _ _ _ _ _).advance 2) (by simp) (by simp) (by simp)
  case flags =>
    exact flagsAre_advance 2 (flagsAre_setZNHC (decide_eq_zero_iff _) Bool.false_eq_true.to_iff
      Bool.false_eq_true.to_iff (writeOpnd_f_of_reads reads _) Iff.rfl)
  case pc => simp [regs_of_opndReads reads]

/-- Settles O43: the same on `A`. -/
theorem accumulatorRotateResult : Obligations.AccumulatorRotateResult := by
  unfold Obligations.AccumulatorRotateResult
  intro k i s row
  refine ⟨rotOut k (s.reg .A), _, exec_ofRotA s row, rotIs_rotResult k (s.reg .A) s.flagC, ?others,
    ?flags, by simp, ?outside⟩
  case others =>
    have frame := setReg_sameRegsBut s .A (rotResult k (s.reg .A) s.flagC)
    exact (frame.congr (State.setRotFlags_reg _ _ _) rfl rfl).advance 1
  case flags =>
    exact flagsAre_advance 1 (flagsAre_setZNHC (decide_eq_zero_iff _) Bool.false_eq_true.to_iff
      Bool.false_eq_true.to_iff (State.setReg_regs_f s .A _) Iff.rfl)
  case outside => exact setReg_sameOutside s .A (rotResult k (s.reg .A) s.flagC)

/-- Settles O44: the row looks its second byte up in the secondary table. -/
theorem prefixDispatch : Obligations.PrefixDispatch := by
  unfold Obligations.PrefixDispatch
  refine ⟨fun k o op2 s enc => ?mapped, fun op2 mapped => ?all, fun op2 s unmapped => ?unmapped⟩
  case mapped =>
    have same : exec (.prefix_CB op2) s = exec (Instr.ofRot k o) s := by
      rw [exec_of_prefix_CB, exec_ofRot, dispatchPrefixed_of_secondary s (secondary_of_encode enc)]
    rw [same, exec_ofRot]
    exact ⟨_, rotateOpnd_eq s k o, rotateOpnd_eq s k o⟩
  case all =>
    cases row : secondary op2 with
    | none => rw [(secondary_eq_none_iff op2).mp row] at mapped; cases mapped
    | some p => exact ⟨p.1, p.2, encode_of_secondary row⟩
  case unmapped => exact exec_prefix_of_unmapped s unmapped

end Sys2Proof.Machine

/-! # Claims about every instruction -/

namespace Sys2Proof.Machine

/-! ## The inversion of `exec`, one case a family -/

/-- `s` after the rotate or shift `k` of the operand `o` (44_rotate_shift.md R235 to R249). -/
abbrev rotated (k : RotKind) (o : Opnd8) (s : State) : State :=
  ((writeOpnd o (rotResult k (readOpnd o s).1 s.flagC) (readOpnd o s).2).setRotFlags
    (rotResult k (readOpnd o s).1 s.flagC) (rotOut k (readOpnd o s).1)).advance 2

/-- `Runs s i t`: from `s` the instruction `i` completes, with next state `t`. -/
inductive Runs (s : State) : Instr → State → Prop
  | nop : Runs s .nop (s.advance 1)
  | ldReg (d r : Reg8) : Runs s (Instr.ofLdReg d r) ((s.setReg d (s.reg r)).advance 1)
  | ldFromHL (d : Reg8) :
      Runs s (Instr.ofLdFromHL d) (((busRead s.hl s).2.setReg d (busRead s.hl s).1).advance 1)
  | ldToHL (r : Reg8) : Runs s (Instr.ofLdToHL r) ((busWrite s.hl (s.reg r) s).advance 1)
  | ldImm (o : Opnd8) (n : Byte) : Runs s (Instr.ofLdImm o n) ((writeOpnd o n s).advance 2)
  | ldPair (p : Pair) (w : Word) : Runs s (Instr.ofLdPair p w) ((s.setPair p w).advance 3)
  | ldSP (w : Word) : Runs s (.ld_SP_d16 w) ((s.setSP w).advance 3)
  | ldAbs (x : Word) : Runs s (.ld_A_ma16 x) (((busRead x s).2.setReg .A (busRead x s).1).advance 3)
  | stAbs (x : Word) : Runs s (.ld_ma16_A x) ((busWrite x (s.reg .A) s).advance 3)
  | jp (x : Word) : Runs s (.jp_a16 x) (s.jump x)
  | call (x : Word) : Runs s (.call_a16 x) ((push16 (s.regs.pc + 3) s).jump x)
  | ret : Runs s .ret ((pop16 s).2.jump (pop16 s).1)
  | rst (y : Fin 8) : Runs s (Instr.ofRst y) ((push16 (s.regs.pc + 1) s).jump (BitVec.ofNat 16 (8 * y.val)))
  | jr (e : Byte) : Runs s (.jr_e8 e) (s.jump (s.regs.pc + 2 + sext16 e))
  | jrCond (cc : Cond) (e : Byte) :
      Runs s (Instr.ofJr cc e) (s.jump (if s.holds cc then s.regs.pc + 2 + sext16 e else s.regs.pc + 2))
  | push (p : Pair) : Runs s (Instr.ofPush p) ((push16 (s.pair p) s).advance 1)
  | pushAF : Runs s .push_AF ((push16 s.af s).advance 1)
  | pop (p : Pair) : Runs s (Instr.ofPop p) (((pop16 s).2.setPair p (pop16 s).1).advance 1)
  | popAF : Runs s .pop_AF (((pop16 s).2.setAF (pop16 s).1).advance 1)
  | inc (o : Opnd8) : Runs s (Instr.ofInc o)
      (((writeOpnd o (incByte (readOpnd o s).1) (readOpnd o s).2).setIncFlags (readOpnd o s).1).advance 1)
  | dec (o : Opnd8) : Runs s (Instr.ofDec o)
      (((writeOpnd o (decByte (readOpnd o s).1) (readOpnd o s).2).setDecFlags (readOpnd o s).1).advance 1)
  | alu (op : AluOp) (o : Opnd8) :
      Runs s (Instr.ofAlu op o) ((aluOnA op (readOpnd o s).1 (readOpnd o s).2).advance 1)
  | aluImm (op : AluOp) (n : Byte) : Runs s (Instr.ofAluImm op n) ((aluOnA op n s).advance 2)
  | cpl : Runs s .cpl (((s.setReg .A (~~~s.reg .A)).setCplFlags).advance 1)
  | rotA (k : RotKind) (i : Instr) (row : Instr.ofRotA k = some i) :
      Runs s i (((s.setReg .A (rotResult k (s.reg .A) s.flagC)).setRotFlags (rotResult k (s.reg .A) s.flagC)
        (rotOut k (s.reg .A))).advance 1)
  | rot (k : RotKind) (o : Opnd8) : Runs s (Instr.ofRot k o) (rotated k o s)
  | prefixed (op2 : Byte) (k : RotKind) (o : Opnd8) (row : secondary op2 = some (k, o)) :
      Runs s (.prefix_CB op2) (rotated k o s)
  | di : Runs s .di ((s.setIME false).advance 1)
  | ei : Runs s .ei ((s.setIME true).advance 1)

/-- What a completed instruction did. -/
theorem runs_of_exec {i : Instr} {s t : State} (run : exec i s = .next t) : Runs s i t := by
  revert t
  have next {i : Instr} {u : State} (h : Runs s i u) : ∀ t, Host.Outcome.next u = (.next t : Result) → Runs s i t := by
    rintro t ⟨⟩
    exact h
  apply exec_elim (P := fun i r => ∀ t, r = .next t → Runs s i t) s
  case nop => exact next .nop
  case ldReg => exact fun d r => next (.ldReg d r)
  case ldFromHL => exact fun d => loadFromHL_eq s d ▸ next (.ldFromHL d)
  case ldToHL => exact fun r => next (.ldToHL r)
  case ldImm => exact fun o n => next (.ldImm o n)
  case ldPair => exact fun p w => next (.ldPair p w)
  case ldSP => exact fun w => next (.ldSP w)
  case ldAbs => exact fun x => loadAbs_eq s x ▸ next (.ldAbs x)
  case stAbs => exact fun x => next (.stAbs x)
  case jp => exact fun x => next (.jp x)
  case callAbs => exact fun x => next (.call x)
  case ret => exact returnOp_eq s ▸ next .ret
  case rst => exact fun y => next (.rst y)
  case jr => exact fun e => next (.jr e)
  case jrCond => exact fun cc e => jumpRel_eq s (s.holds cc) e ▸ next (.jrCond cc e)
  case push => exact fun p => next (.push p)
  case pushAF => exact next .pushAF
  case pop => exact fun p => popPair_eq s p ▸ next (.pop p)
  case popOfAF => exact popAF_eq s ▸ next .popAF
  case inc => exact fun o => incOpnd_eq s o ▸ next (.inc o)
  case dec => exact fun o => decOpnd_eq s o ▸ next (.dec o)
  case alu => exact fun op o => aluOpnd_eq s op o ▸ next (.alu op o)
  case aluWithImm => exact fun op n => next (.aluImm op n)
  case cpl => exact next .cpl
  case rotA => exact fun k i row => next (.rotA k i row)
  case rot => exact fun k o => rotateOpnd_eq s k o ▸ next (.rot k o)
  case prefixed =>
    intro op2
    cases row : secondary op2 with
    | none =>
      rw [dispatchPrefixed_of_none s row]
      rintro t ⟨⟩
    | some p =>
      rw [dispatchPrefixed_of_secondary s row, rotateOpnd_eq]
      exact next (.prefixed op2 p.1 p.2 row)
  case di => exact next .di
  case ei => exact next .ei

@[simp] theorem aluOnA_regs_sp (op : AluOp) (b : Byte) (s : State) : (aluOnA op b s).regs.sp = s.regs.sp := by
  cases op <;> rfl
@[simp] theorem aluOnA_regs_pc (op : AluOp) (b : Byte) (s : State) : (aluOnA op b s).regs.pc = s.regs.pc := by
  cases op <;> rfl
@[simp] theorem aluOnA_regs_ime (op : AluOp) (b : Byte) (s : State) : (aluOnA op b s).regs.ime = s.regs.ime := by
  cases op <;> rfl

/-! ## `PC` (30_encoding.md R123): the lengths of the encodings, by family (R120) -/

@[simp] theorem encode_ofLdReg_length (d r : Reg8) : (encode (Instr.ofLdReg d r)).length = 1 := by
  cases d <;> cases r <;> rfl
@[simp] theorem encode_ofLdFromHL_length (d : Reg8) : (encode (Instr.ofLdFromHL d)).length = 1 := by cases d <;> rfl
@[simp] theorem encode_ofLdToHL_length (r : Reg8) : (encode (Instr.ofLdToHL r)).length = 1 := by cases r <;> rfl
@[simp] theorem encode_ofLdImm_length (o : Opnd8) (n : Byte) : (encode (Instr.ofLdImm o n)).length = 2 := by
  rcases o with (_ | _ | _ | _ | _ | _ | _) | _ <;> rfl
@[simp] theorem encode_ofLdPair_length (p : Pair) (w : Word) : (encode (Instr.ofLdPair p w)).length = 3 := by
  cases p <;> rfl
@[simp] theorem encode_ofPush_length (p : Pair) : (encode (Instr.ofPush p)).length = 1 := by cases p <;> rfl
@[simp] theorem encode_ofPop_length (p : Pair) : (encode (Instr.ofPop p)).length = 1 := by cases p <;> rfl
@[simp] theorem encode_ofInc_length (o : Opnd8) : (encode (Instr.ofInc o)).length = 1 := by
  rcases o with (_ | _ | _ | _ | _ | _ | _) | _ <;> rfl
@[simp] theorem encode_ofDec_length (o : Opnd8) : (encode (Instr.ofDec o)).length = 1 := by
  rcases o with (_ | _ | _ | _ | _ | _ | _) | _ <;> rfl
@[simp] theorem encode_ofAlu_length (op : AluOp) (o : Opnd8) : (encode (Instr.ofAlu op o)).length = 1 := by
  rcases o with (_ | _ | _ | _ | _ | _ | _) | _ <;> cases op <;> rfl
@[simp] theorem encode_ofAluImm_length (op : AluOp) (n : Byte) : (encode (Instr.ofAluImm op n)).length = 2 := by
  cases op <;> rfl
theorem encode_ofRotA_length {k : RotKind} {i : Instr} (row : Instr.ofRotA k = some i) : (encode i).length = 1 := by
  cases k <;> cases row <;> rfl
@[simp] theorem encode_ofRot_length (k : RotKind) (o : Opnd8) : (encode (Instr.ofRot k o)).length = 2 := by
  rcases o with (_ | _ | _ | _ | _ | _ | _) | _ <;> cases k <;> rfl
@[simp] theorem encode16_length (op : Byte) (w : Word) : (encode16 op w).length = 3 := rfl

theorem Runs.pc_of_straight {i : Instr} {s t : State} (runs : Runs s i t) (straight : ¬ Branches i) :
    t.regs.pc = s.regs.pc + BitVec.ofNat 16 (encode i).length := by
  cases runs
  case jp x => exact absurd (.inl ⟨x, rfl⟩) straight
  case call x => exact absurd (.inr (.inl ⟨x, rfl⟩)) straight
  case ret => exact absurd (.inr (.inr (.inl rfl))) straight
  case rst y => exact absurd (.inr (.inr (.inr (.inl ⟨y, rfl⟩)))) straight
  case jr e => exact absurd (.inr (.inr (.inr (.inr (.inl ⟨e, rfl⟩))))) straight
  case jrCond cc e => exact absurd (.inr (.inr (.inr (.inr (.inr ⟨cc, e, rfl⟩))))) straight
  case rotA k row => simp [encode_ofRotA_length row]
  case ldReg | ldFromHL | ldToHL | ldImm | ldPair | push | pop | inc | dec | alu | aluImm | rot => simp
  case nop | ldSP | ldAbs | stAbs | pushAF | popAF | cpl | prefixed | di | ei => simp [encode]

/-- Settles O12: each family that does not branch ends with `State.advance` by its length. -/
theorem sequentialPc : Obligations.SequentialPc := by
  unfold Obligations.SequentialPc
  intro i s t run straight
  rw [(runs_of_exec run).pc_of_straight straight, BitVec.toNat_add, BitVec.toNat_ofNat]
  omega

/-! ## `F` (10_state.md R14) -/

theorem Runs.f_of_other {i : Instr} {s t : State} (runs : Runs s i t) (other : ¬ WritesFlags i) :
    t.regs.f = s.regs.f := by
  cases runs
  case inc o => exact absurd (.inl ⟨o, rfl⟩) other
  case dec o => exact absurd (.inr (.inl ⟨o, rfl⟩)) other
  case alu op o => exact absurd (.inr (.inr (.inl ⟨op, o, rfl⟩))) other
  case aluImm op n => exact absurd (.inr (.inr (.inr (.inl ⟨op, n, rfl⟩)))) other
  case cpl => exact absurd (.inr (.inr (.inr (.inr (.inl rfl))))) other
  case rotA k row => exact absurd (.inr (.inr (.inr (.inr (.inr (.inl ⟨k, row⟩)))))) other
  case rot k o => exact absurd (.inr (.inr (.inr (.inr (.inr (.inr (.inl ⟨k, o, rfl⟩))))))) other
  case prefixed op2 _ _ _ => exact absurd (.inr (.inr (.inr (.inr (.inr (.inr (.inr (.inl ⟨op2, rfl⟩)))))))) other
  case popAF => exact absurd (.inr (.inr (.inr (.inr (.inr (.inr (.inr (.inr rfl)))))))) other
  case nop | jp | jr | jrCond | ldSP | di | ei => rfl
  case ldReg | ldFromHL | ldToHL | ldImm | ldPair | ldAbs | stAbs | call | ret | rst | push | pushAF | pop => simp

/-- Settles O17: no operation of the other families writes `F`. -/
theorem onlyFlagInstructionsChangeF : Obligations.OnlyFlagInstructionsChangeF := by
  unfold Obligations.OnlyFlagInstructionsChangeF
  intro i s t run other
  exact (runs_of_exec run).f_of_other other

/-! ## `SP` (10_state.md R11, R15) -/

/-- Settles O18: `SP` is written by `State.setSP`, `push16` and `pop16` only. -/
theorem onlyStackInstructionsMoveSP : Obligations.OnlyStackInstructionsMoveSP := by
  unfold Obligations.OnlyStackInstructionsMoveSP
  intro i s t run
  cases runs_of_exec run
  case ldSP w => exact .inl ⟨w, rfl, rfl⟩
  case call x => exact .inr (.inl ⟨.inr (.inr (.inl ⟨x, rfl⟩)), by simp⟩)
  case rst y => exact .inr (.inl ⟨.inr (.inr (.inr ⟨y, rfl⟩)), by simp⟩)
  case push p => exact .inr (.inl ⟨.inl ⟨p, rfl⟩, by simp⟩)
  case pushAF => exact .inr (.inl ⟨.inr (.inl rfl), by simp⟩)
  case ret => exact .inr (.inr (.inl ⟨.inl rfl, by simp⟩))
  case pop p => exact .inr (.inr (.inl ⟨.inr (.inr ⟨p, rfl⟩), by simp⟩))
  case popAF => exact .inr (.inr (.inl ⟨.inr (.inl rfl), by simp⟩))
  case nop | ldReg | ldFromHL | ldToHL | ldImm | ldPair | ldAbs | stAbs | jp | jr | jrCond | inc | dec | alu | aluImm |
      cpl | rotA | rot | prefixed | di | ei =>
    exact .inr (.inr (.inr (by simp)))

/-! ## Memory (20_memory.md R57) -/

theorem OnlyReads.setAF (s : State) (w : Word) : OnlyReads s (s.setAF w) := .of ⟨rfl, rfl, rfl, rfl⟩ rfl

theorem Runs.onlyReads {i : Instr} {s t : State} (runs : Runs s i t) (quiet : StoresNothing i) : OnlyReads s t := by
  obtain ⟨notAtHL, notOnStack, notAbs, notPrefix⟩ := quiet
  cases runs
  case nop => exact .adv s 1
  case ldReg d r => exact (OnlyReads.setReg s d _).trans (.adv _ _)
  case ldFromHL d => exact (OnlyReads.read s.hl s).trans ((OnlyReads.setReg _ d _).trans (.adv _ _))
  case ldToHL r => exact absurd (.inl ⟨r, rfl⟩) notAtHL
  case ldImm o n =>
    cases o with
    | reg r => exact (OnlyReads.setReg s r n).trans (.adv _ _)
    | mHL => exact absurd (.inr (.inl ⟨n, rfl⟩)) notAtHL
  case ldPair p w => exact (OnlyReads.setReg s _ _).trans ((OnlyReads.setReg _ _ _).trans (.adv _ _))
  case ldAbs x => exact (OnlyReads.read x s).trans ((OnlyReads.setReg _ .A _).trans (.adv _ _))
  case stAbs x => exact absurd rfl (notAbs x)
  case call x => exact absurd (.inr (.inr (.inl ⟨x, rfl⟩))) notOnStack
  case ret => exact (OnlyReads.pop s).trans (.jump _ _)
  case rst y => exact absurd (.inr (.inr (.inr ⟨y, rfl⟩))) notOnStack
  case push p => exact absurd (.inl ⟨p, rfl⟩) notOnStack
  case pushAF => exact absurd (.inr (.inl rfl)) notOnStack
  case pop p =>
    exact (OnlyReads.pop s).trans ((OnlyReads.setReg _ _ _).trans ((OnlyReads.setReg _ _ _).trans (.adv _ _)))
  case popAF => exact (OnlyReads.pop s).trans ((OnlyReads.setAF _ _).trans (.adv _ _))
  case inc o =>
    cases o with
    | reg r => exact (OnlyReads.setReg s r _).trans ((OnlyReads.znh _ _ _ _).trans (.adv _ _))
    | mHL => exact absurd (.inr (.inr (.inl rfl))) notAtHL
  case dec o =>
    cases o with
    | reg r => exact (OnlyReads.setReg s r _).trans ((OnlyReads.znh _ _ _ _).trans (.adv _ _))
    | mHL => exact absurd (.inr (.inr (.inr (.inl rfl)))) notAtHL
  case alu op o => exact (OnlyReads.opnd o s).trans ((OnlyReads.alu op _ _).trans (.adv _ _))
  case aluImm op n => exact (OnlyReads.alu op n s).trans (.adv _ _)
  case rotA k row => exact (OnlyReads.setReg s .A _).trans ((OnlyReads.znhc _ _ _ _ _).trans (.adv _ _))
  case rot k o =>
    cases o with
    | reg r => exact (OnlyReads.setReg s r _).trans ((OnlyReads.znhc _ _ _ _ _).trans (.adv _ _))
    | mHL => exact absurd (.inr (.inr (.inr (.inr ⟨k, rfl⟩)))) notAtHL
  case prefixed op2 _ _ _ => exact absurd rfl (notPrefix op2)
  case jp | jr | jrCond => exact .jump s _
  case ldSP | cpl | di | ei => exact .of ⟨rfl, rfl, rfl, rfl⟩ rfl

/-- Settles O46: an instruction that stores nothing only reads. -/
theorem nonStoringKeepMemory : Obligations.NonStoringKeepMemory := by
  unfold Obligations.NonStoringKeepMemory
  intro i s t run quiet
  have reads := (runs_of_exec run).onlyReads quiet
  exact ⟨reads.1, fun b _ => reads.bytes b⟩

end Sys2Proof.Machine

/-! # Stores stay where they go (spec/20_memory.md R57, R64, R70) -/

namespace Sys2Proof.Machine

/-- One bus write at `a`, from a state `s1` that `s` reaches by reads alone: above the control ranges it leaves the bank
controller and every byte but the one that `a` reaches, in them it leaves the arrays, and everywhere the cartridge. -/
theorem frame_of_store {s s1 t : State} {a : Word} {v : Byte} (reads : OnlyReads s s1)
    (outside : SameOutside (busWrite a v s1) t) :
    (0x8000 ≤ a.toNat → t.mbc = s.mbc ∧ BytesElsewhere [a] s t) ∧ (a.toNat ≤ 0x7FFF → t.ram = s.ram) ∧
      t.cart = s.cart := by
  obtain ⟨mbc, ram, cart, -⟩ := outside.1
  obtain ⟨mbc1, ram1, cart1, -⟩ := reads.1
  refine ⟨fun high => ⟨?_, fun b elsewhere => ?_⟩, fun low => ?_, ?_⟩
  · rw [mbc, busWrite_mbc high, mbc1]
  · have other : route s1 b ≠ route s1 a := by
      rw [route_congr mbc1 cart1, route_congr mbc1 cart1]
      exact elsewhere a List.mem_cons_self
    rw [busRead_fst_of_sameOutside outside, busRead_busWrite_other high other, reads.bytes]
  · rw [ram, busWrite_low low, controlWrite_ram, ram1]
  · rw [cart, busWrite_cart, cart1]

/-- Two bus writes one after the other, at `a` and then at `b`, likewise. -/
theorem frame_of_two_stores {s t : State} {a b : Word} {v w : Byte}
    (outside : SameOutside (busWrite b w (busWrite a v s)) t) :
    (0x8000 ≤ a.toNat → 0x8000 ≤ b.toNat → t.mbc = s.mbc ∧ BytesElsewhere [a, b] s t) ∧
    (a.toNat ≤ 0x7FFF → b.toNat ≤ 0x7FFF → t.ram = s.ram) ∧ t.cart = s.cart := by
  obtain ⟨high1, low1, cart1⟩ :=
    frame_of_store (.of (SameStorage.refl s) rfl) (SameOutside.refl (busWrite a v s))
  obtain ⟨high2, low2, cart2⟩ := frame_of_store (.of (SameStorage.refl _) rfl) outside
  refine ⟨fun ha hb => ?_, fun ha hb => (low2 hb).trans (low1 ha), cart2.trans cart1⟩
  obtain ⟨mbc1, bytes1⟩ := high1 ha
  obtain ⟨mbc2, bytes2⟩ := high2 hb
  refine ⟨mbc2.trans mbc1, fun x elsewhere => (bytes2 x ?_).trans (bytes1 x ?_)⟩
  · simpa [busWrite_route ha] using elsewhere b (by simp)
  · simpa using elsewhere a (by simp)

/-- Outside the CPU, a store at `HL` is one bus write there, from the state that the reads of the instruction leave. -/
theorem store_at_HL {i : Instr} {s t : State} (run : exec i s = .next t) (stores : StoresAtHL i) :
    ∃ s1 v, OnlyReads s s1 ∧ SameOutside (busWrite s.hl v s1) t := by
  have stays := OnlyReads.of (SameStorage.refl s) rfl
  have reads := OnlyReads.read s.hl s
  have written {v : Byte} {u : State} (h : SameOutside (writeOpnd .mHL v (busRead s.hl s).2) u) :
      SameOutside (busWrite s.hl v (busRead s.hl s).2) u := by
    rwa [writeOpnd_mHL, busRead_hl] at h
  obtain ⟨r, rfl⟩ | ⟨n, rfl⟩ | rfl | rfl | ⟨k, rfl⟩ := stores
  · rw [exec_ofLdToHL] at run
    cases run
    exact ⟨s, s.reg r, stays, SameOutside.refl _⟩
  · rw [exec_ofLdImm] at run
    cases run
    exact ⟨s, n, stays, SameOutside.refl _⟩
  · rw [exec_ofInc, incOpnd_eq] at run
    cases run
    exact ⟨_, _, reads, written ((setZNH_sameOutside _ _ _ _).advance 1)⟩
  · rw [exec_ofDec, decOpnd_eq] at run
    cases run
    exact ⟨_, _, reads, written ((setZNH_sameOutside _ _ _ _).advance 1)⟩
  · rw [exec_ofRot, rotateOpnd_eq] at run
    cases run
    exact ⟨_, _, reads, written ((setZNHC_sameOutside _ _ _ _ _).advance 2)⟩

/-- Settles O47: the store is one bus write at `HL`. -/
theorem hlStoresStayAtHL : Obligations.HLStoresStayAtHL := by
  unfold Obligations.HLStoresStayAtHL
  intro i s t run stores
  obtain ⟨s1, v, reads, outside⟩ := store_at_HL run stores
  exact frame_of_store reads outside

/-- Outside the CPU, a store on the stack is a push of some word. -/
theorem store_on_stack {i : Instr} {s t : State} (run : exec i s = .next t) (stores : StoresOnStack i) :
    ∃ w, SameOutside (afterPush w s) t := by
  obtain ⟨p, rfl⟩ | rfl | ⟨x, rfl⟩ | ⟨y, rfl⟩ := stores
  · rw [exec_ofPush] at run
    cases run
    exact ⟨_, (push16_sameOutside (s.pair p) s).advance 1⟩
  · cases run
    exact ⟨_, (push16_sameOutside s.af s).advance 1⟩
  · cases run
    exact ⟨_, (push16_sameOutside (s.regs.pc + 3) s).trans (jump_sameOutside _ x)⟩
  · rw [exec_ofRst] at run
    cases run
    exact ⟨_, (push16_sameOutside (s.regs.pc + 1) s).trans (jump_sameOutside _ _)⟩

/-- Settles O48: one bus write, or the two of a push. -/
theorem otherStoresStayInPlace : Obligations.OtherStoresStayInPlace := by
  unfold Obligations.OtherStoresStayInPlace
  refine ⟨fun x s t run => ?_, fun i s t run stores => ?_⟩
  · cases run
    exact frame_of_store (v := s.reg .A) (OnlyReads.of (SameStorage.refl s) rfl) ((SameOutside.refl _).advance 3)
  · obtain ⟨w, outside⟩ := store_on_stack run stores
    exact frame_of_two_stores outside

end Sys2Proof.Machine

/-! # `IME` is storage only (spec/10_state.md R17) -/

namespace Sys2Proof.Machine

/-! ## The operations commute with a change of `IME` -/

section
variable (s : State) (b : Bool)

theorem setIME_setIME (c : Bool) : (s.setIME b).setIME c = s.setIME c := rfl

theorem setIME_setReg (r : Reg8) (v : Byte) : (s.setIME b).setReg r v = (s.setReg r v).setIME b := by cases r <;> rfl

theorem setIME_setPair (p : Pair) (w : Word) : (s.setIME b).setPair p w = (s.setPair p w).setIME b := by
  cases p <;> rfl

theorem setIME_pair (p : Pair) : (s.setIME b).pair p = s.pair p := by cases p <;> rfl

theorem setIME_holds (cc : Cond) : (s.setIME b).holds cc = s.holds cc := by cases cc <;> rfl

theorem setIME_takeSample : (s.setIME b).takeSample = s.takeSample.setIME b := by
  unfold State.takeSample
  cases h : s.clock.samples <;> simp [h] <;> rfl

theorem setIME_busRead (a : Word) : busRead a (s.setIME b) = ((busRead a s).1, (busRead a s).2.setIME b) := by
  rw [State.setIME, busRead_withRegs, State.setIME, busRead_regs]

theorem setIME_busWrite (a : Word) (v : Byte) : busWrite a v (s.setIME b) = (busWrite a v s).setIME b := by
  rw [State.setIME, busWrite_withRegs, State.setIME, busWrite_regs]

theorem setIME_readOpnd (o : Opnd8) : readOpnd o (s.setIME b) = ((readOpnd o s).1, (readOpnd o s).2.setIME b) := by
  cases o with
  | reg r => rw [readOpnd_reg, readOpnd_reg, State.setIME_reg]
  | mHL => exact setIME_busRead s b s.hl

theorem setIME_writeOpnd (o : Opnd8) (v : Byte) : writeOpnd o v (s.setIME b) = (writeOpnd o v s).setIME b := by
  cases o with
  | reg r => exact setIME_setReg s b r v
  | mHL => exact setIME_busWrite s b s.hl v

theorem setIME_pushByte (v : Byte) : pushByte v (s.setIME b) = (pushByte v s).setIME b :=
  setIME_busWrite (s.setSP (s.regs.sp - 1)) b _ v

theorem setIME_push16 (w : Word) : push16 w (s.setIME b) = (push16 w s).setIME b := by
  rw [push16, push16, setIME_pushByte, setIME_pushByte]

theorem setIME_popByte : popByte (s.setIME b) = ((popByte s).1, (popByte s).2.setIME b) := by
  rw [popByte, State.setIME_regs_sp, setIME_busRead]
  rfl

theorem setIME_pop16 : pop16 (s.setIME b) = ((pop16 s).1, (pop16 s).2.setIME b) := by
  rw [pop16, setIME_popByte]
  dsimp only
  rw [setIME_popByte]
  rfl

theorem setIME_aluOnA (op : AluOp) (v : Byte) : aluOnA op v (s.setIME b) = (aluOnA op v s).setIME b := by
  cases op <;> rfl

theorem setIME_fetchBytes (n : Nat) (a : Word) :
    fetchBytes n a (s.setIME b) = ((fetchBytes n a s).1, (fetchBytes n a s).2.setIME b) := by
  induction n generalizing a s with
  | zero => rfl
  | succ n ih =>
    rw [fetchBytes, setIME_busRead]
    dsimp only
    rw [ih]
    rfl

theorem setIME_fetch : fetch (s.setIME b) = ((fetch s).1, (fetch s).2.setIME b) := by
  rw [fetch, State.setIME_regs_pc, setIME_busRead]
  dsimp only
  rw [setIME_fetchBytes]
  rfl

end

/-! ## Every instruction but `DI` and `EI` commutes with it -/

theorem Runs.setIME {i : Instr} {s t : State} (runs : Runs s i t) (b : Bool) (notDI : i ≠ .di) (notEI : i ≠ .ei) :
    exec i (s.setIME b) = .next (t.setIME b) := by
  cases runs
  case nop => rfl
  case ldReg d r => rw [exec_ofLdReg, loadReg, setIME_setReg, State.setIME_reg]; rfl
  case ldFromHL d => rw [exec_ofLdFromHL, loadFromHL_eq, State.setIME_hl, setIME_busRead, setIME_setReg]; rfl
  case ldToHL r => rw [exec_ofLdToHL, storeToHL, State.setIME_hl, setIME_busWrite, State.setIME_reg]; rfl
  case ldImm o n => rw [exec_ofLdImm, loadImm, setIME_writeOpnd]; rfl
  case ldPair p w => rw [exec_ofLdPair, loadPair, setIME_setPair]; rfl
  case ldSP w => rfl
  case ldAbs x =>
    show loadAbs x _ = _
    rw [loadAbs_eq, setIME_busRead, setIME_setReg]; rfl
  case stAbs x =>
    show storeAbs x _ = _
    rw [storeAbs, setIME_busWrite, State.setIME_reg]; rfl
  case jp x => rfl
  case call x =>
    show Sys2Proof.Machine.call 3 x _ = _
    rw [Sys2Proof.Machine.call, setIME_push16]; rfl
  case ret =>
    show returnOp _ = _
    rw [returnOp_eq, setIME_pop16]; rfl
  case rst y => rw [exec_ofRst, Sys2Proof.Machine.call, setIME_push16]; rfl
  case jr e => rfl
  case jrCond cc e => rw [exec_ofJr, jumpRel_eq, setIME_holds]; rfl
  case push p => rw [exec_ofPush, pushWord, setIME_pair, setIME_push16]; rfl
  case pushAF =>
    show pushWord _ _ = _
    rw [pushWord, setIME_push16]; rfl
  case pop p => rw [exec_ofPop, popPair_eq, setIME_pop16, setIME_setPair]; rfl
  case popAF =>
    show Sys2Proof.Machine.popAF _ = _
    rw [popAF_eq, setIME_pop16]; rfl
  case inc o => rw [exec_ofInc, incOpnd_eq, setIME_readOpnd, setIME_writeOpnd]; rfl
  case dec o => rw [exec_ofDec, decOpnd_eq, setIME_readOpnd, setIME_writeOpnd]; rfl
  case alu op o => rw [exec_ofAlu, aluOpnd_eq, setIME_readOpnd, setIME_aluOnA]; rfl
  case aluImm op n => rw [exec_ofAluImm, Sys2Proof.Machine.aluImm, setIME_aluOnA]; rfl
  case cpl => rfl
  case rotA k row => rw [exec_ofRotA _ row]; rfl
  case rot k o => rw [exec_ofRot, rotateOpnd_eq, setIME_readOpnd, setIME_writeOpnd]; rfl
  case prefixed op2 k o row =>
    rw [exec_of_prefix_CB, dispatchPrefixed_of_secondary _ row, rotateOpnd_eq, setIME_readOpnd, setIME_writeOpnd]; rfl
  case di => exact absurd rfl notDI
  case ei => exact absurd rfl notEI

theorem Runs.ime_of_other {i : Instr} {s t : State} (runs : Runs s i t) (notDI : i ≠ .di) (notEI : i ≠ .ei) :
    t.regs.ime = s.regs.ime := by
  cases runs
  case di => exact absurd rfl notDI
  case ei => exact absurd rfl notEI
  all_goals simp

/-! ## The step, up to `IME` -/

/-- The outcome with `IME` taken out of the state it carries. -/
def forgetIME (r : Result) : Result := mapOutcome (fun t => t.setIME false) r

theorem forgetIME_exec (i : Instr) (s : State) (b : Bool) : forgetIME (exec i (s.setIME b)) = forgetIME (exec i s) := by
  obtain ⟨t, run⟩ | ⟨op2, rfl, unmapped⟩ := exec_answers i s
  · by_cases notDI : i = .di
    · subst notDI; rfl
    by_cases notEI : i = .ei
    · subst notEI; rfl
    rw [run, (runs_of_exec run).setIME b notDI notEI]
    rfl
  · rw [exec_prefix_of_unmapped _ unmapped, exec_prefix_of_unmapped _ unmapped]
    rfl

theorem forgetIME_runDecoded (bytes : List Byte) (s : State) (b : Bool) :
    forgetIME (runDecoded exec bytes (s.setIME b)) = forgetIME (runDecoded exec bytes s) := by
  unfold runDecoded
  rcases decode bytes with (op | _) | ⟨i, _⟩
  · rfl
  · rfl
  · exact forgetIME_exec i s b

/-- Settles O19: the clock sample and the fetch carry `IME` along, and so does every instruction but its two writers. -/
theorem imeIsStorageOnly : Obligations.ImeIsStorageOnly := by
  unfold Obligations.ImeIsStorageOnly
  refine ⟨fun s b => ?_, fun i s t run => (runs_of_exec run).ime_of_other, fun s => ⟨_, rfl, rfl⟩,
    fun s => ⟨_, rfl, rfl⟩⟩
  show forgetIME (step (s.setIME b)) = forgetIME (step s)
  rw [step, setIME_takeSample, setIME_fetch]
  exact forgetIME_runDecoded _ _ b

end Sys2Proof.Machine

/-! # The address map (spec/20_memory.md) -/

namespace Sys2Proof.Machine

/-! ## Echo RAM, and the hole after OAM (R64, R67) -/

theorem busRead_of_same_route {s : State} {a b : Word} (h : route s a = route s b) : busRead a s = busRead b s := by
  rw [busRead, busRead, h]

theorem busWrite_of_same_route {s : State} {a b : Word} (v : Byte) (ha : 0x8000 ≤ a.toNat) (hb : 0x8000 ≤ b.toNat)
    (h : route s a = route s b) : busWrite a v s = busWrite b v s := by
  rw [busWrite_high ha, busWrite_high hb, h]

/-- An address that reaches no storage reads the sentinel and drops writes (R67). -/
theorem access_of_nowhere {s : State} {a : Word} (v : Byte) (h : 0x8000 ≤ a.toNat) (hr : route s a = .nowhere) :
    busRead a s = (0xFF, s) ∧ busWrite a v s = s :=
  ⟨busRead_of_route hr nofun, busWrite_of_route v h hr⟩

/-- Settles O51: the two addresses reach the same byte of WRAM, and the hole reaches nothing. -/
theorem echoAndHole : Obligations.EchoAndHole := by
  unfold Obligations.EchoAndHole
  refine ⟨fun k v s hk => ?_, fun a v s lo hi => access_of_nowhere v (by omega) (route_hole lo hi)⟩
  have echoAt : (BitVec.ofNat 16 (0xE000 + k)).toNat = 0xE000 + k := by rw [BitVec.toNat_ofNat]; omega
  have wramAt : (BitVec.ofNat 16 (0xC000 + k)).toNat = 0xC000 + k := by rw [BitVec.toNat_ofNat]; omega
  have same : route s (BitVec.ofNat 16 (0xE000 + k)) = route s (BitVec.ofNat 16 (0xC000 + k)) := by
    rw [route_echo (by omega) (by omega), route_wram (by omega) (by omega), echoAt, wramAt, Nat.add_sub_cancel_left,
      Nat.add_sub_cancel_left]
  exact ⟨busRead_of_same_route same, busWrite_of_same_route v (by omega) (by omega) same⟩

/-! ## ROM reads (R59 to R61) -/

theorem romStore_of_lt {s : State} {off : Nat} (h : off < s.cart.romLen) : romStore s off = .rom off := if_pos h

theorem romStore_of_ge {s : State} {off : Nat} (h : s.cart.romLen ≤ off) : romStore s off = .nowhere :=
  if_neg (Nat.not_lt.mpr h)

/-- Settles O52: both ranges go through `romStore` at their offset. -/
theorem romReads : Obligations.RomReads := by
  unfold Obligations.RomReads
  intro a s off range
  have hr : route s a = romStore s off := by
    obtain ⟨bank0, rfl⟩ | ⟨lo, window, rfl⟩ := range
    · exact route_rom0 bank0
    · exact route_rom1 lo window
  exact ⟨fun inside => busRead_of_route (hr.trans (romStore_of_lt inside)) nofun,
    fun beyond => busRead_of_route (hr.trans (romStore_of_ge beyond)) nofun⟩

/-! ## The external window (R80 to R83) -/

theorem rtcWindow_of_clockless {s : State} (h : s.cart.mbcType ≠ .mbc7bitRtc) : rtcWindow s = none := by
  unfold rtcWindow
  cases mbcType : s.cart.mbcType
  case mbc7bitRtc => exact absurd mbcType h
  all_goals rfl

theorem rtcSelect_of_bank {sel : Byte} (h : sel.toNat ≤ 3) : rtcSelect sel = none := by
  unfold rtcSelect
  split
  case h_6 => rfl
  all_goals omega

theorem rtcWindow_of_bank {s : State} (h : s.mbc.ramBank.toNat ≤ 3) : rtcWindow s = none := by
  unfold rtcWindow
  cases s.cart.mbcType
  case mbc7bitRtc => exact rtcSelect_of_bank h
  all_goals rfl

theorem extStore_disabled {s : State} (a : Nat) (h : s.mbc.ramEnabled = false) : extStore s a = .nowhere := if_pos h

section
variable {s : State} {a off : Nat} (enabled : s.mbc.ramEnabled = true)
include enabled

theorem extStore_rtc {reg : RtcReg} (h : rtcWindow s = some reg) : extStore s a = .rtc reg := by
  simp only [extStore, enabled, h, Bool.true_eq_false, if_false]

theorem extStore_ram (h : rtcWindow s = none) (hoff : off = (a - 0xA000) + s.mbc.ramBank.toNat * 0x2000) :
    extStore s a = if off < s.cart.ramSize.bytes then .eram off else .nowhere := by
  simp only [extStore, enabled, h, hoff, Bool.true_eq_false, if_false]

end

/-- Settles O53: disabled or beyond `RAM_SIZE` the window reaches nothing, else one byte of the external RAM. -/
theorem externalRam : Obligations.ExternalRam := by
  unfold Obligations.ExternalRam
  intro a v s lo hi legal
  have high : 0x8000 ≤ a.toNat := by omega
  have hr := route_ext (s := s) lo hi
  obtain ⟨-, -, -, -, -, eram⟩ := (Ram.legal_iff _ _).mp legal.ram
  refine ⟨fun disabled => access_of_nowhere v high (hr.trans (extStore_disabled _ disabled)), ?_⟩
  intro enabled noClock off isOff
  have noRtc : rtcWindow s = none := noClock.elim rtcWindow_of_clockless rtcWindow_of_bank
  rw [extStore_ram enabled noRtc isOff] at hr
  refine ⟨fun inside => ?_, fun beyond => ?_⟩
  · rw [if_pos inside] at hr
    exact ⟨busRead_of_route hr nofun, _, busWrite_of_route v high hr, Memory.write_updates eram off v⟩
  · rw [if_neg (Nat.not_lt.mpr beyond)] at hr
    exact access_of_nowhere v high hr

theorem rtcWindow_of_selector {s : State} {reg : RtcReg} (clock : s.cart.mbcType = .mbc7bitRtc)
    (sel : (s.mbc.ramBank.toNat, reg) ∈
      [(0x08, RtcReg.seconds), (0x09, .minutes), (0x0A, .hours), (0x0B, .dayLow), (0x0C, .dayHigh)]) :
    rtcWindow s = some reg := by
  simp only [List.mem_cons, Prod.mk.injEq, List.not_mem_nil, or_false] at sel
  obtain ⟨bank, rfl⟩ | ⟨bank, rfl⟩ | ⟨bank, rfl⟩ | ⟨bank, rfl⟩ | ⟨bank, rfl⟩ := sel <;>
    simp only [rtcWindow, clock, rtcSelect, bank]

theorem Rtc.beforeRead_of_latched {r : Rtc} (now : Nat) (h : r.latched = true) : r.beforeRead now = r := if_pos h

theorem Rtc.beforeRead_of_unlatched {r : Rtc} (now : Nat) (h : r.latched = false) : r.beforeRead now = r.refresh now :=
  if_neg (by simp [h])

end Sys2Proof.Machine

namespace Sys2Proof

open Machine

/-- Settles O54: every address of the window reaches the register that `ramBank` selects. -/
theorem rtcWindow : Obligations.RtcWindow := by
  unfold Obligations.RtcWindow
  intro a v s reg lo hi enabled clock sel
  have hr : route s a = .rtc reg := (route_ext lo hi).trans (extStore_rtc enabled (rtcWindow_of_selector clock sel))
  refine ⟨fun latched => ?_, fun unlatched => ?_, busWrite_of_route v (by omega) hr, Rtc.get_put_same reg v s.rtc,
    fun other ne => Rtc.get_put_other v s.rtc ne, Rtc.put_last reg v s.rtc, Rtc.put_latched reg v s.rtc⟩
  · rw [busRead_rtc hr, Rtc.beforeRead_of_latched _ latched]
  · rw [busRead_rtc hr, Rtc.beforeRead_of_unlatched _ unlatched]

end Sys2Proof

namespace Sys2Proof.Machine

/-! ## Bank-control writes (R70 to R74) -/

section
variable {a : Word} {s : State} (v : Byte)

theorem busWrite_romOnly (low : a.toNat ≤ 0x7FFF) (h : s.cart.mbcType = .romOnly) : busWrite a v s = s := by
  rw [busWrite_low low, controlWrite, h]

variable (mapped : s.cart.mbcType ≠ .romOnly)
include mapped

/-- On the three controllers the range decides which of the four writes it is. -/
theorem busWrite_control (low : a.toNat ≤ 0x7FFF) : busWrite a v s =
    if a.toNat ≤ 0x1FFF then ramEnableWrite v s
    else if a.toNat ≤ 0x3FFF then romBankWrite v s
    else if a.toNat ≤ 0x5FFF then ramBankWrite v s
    else latchWrite v s := by
  rw [busWrite_low low, controlWrite]
  cases mbcType : s.cart.mbcType
  case romOnly => exact absurd mbcType mapped
  all_goals rfl

theorem busWrite_ramEnable (hi : a.toNat ≤ 0x1FFF) : busWrite a v s = ramEnableWrite v s := by
  rw [busWrite_control v mapped (by omega), if_pos hi]

theorem busWrite_romBank (lo : 0x2000 ≤ a.toNat) (hi : a.toNat ≤ 0x3FFF) : busWrite a v s = romBankWrite v s := by
  rw [busWrite_control v mapped (by omega), if_neg (by omega), if_pos hi]

theorem busWrite_ramBank (lo : 0x4000 ≤ a.toNat) (hi : a.toNat ≤ 0x5FFF) : busWrite a v s = ramBankWrite v s := by
  rw [busWrite_control v mapped (by omega), if_neg (by omega), if_neg (by omega), if_pos hi]

theorem busWrite_latch (lo : 0x6000 ≤ a.toNat) (hi : a.toNat ≤ 0x7FFF) : busWrite a v s = latchWrite v s := by
  rw [busWrite_control v mapped hi, if_neg (by omega), if_neg (by omega), if_neg (by omega)]

end

/-- Settles O55: the write is `ramEnableWrite`. -/
theorem ramEnableWrites : Obligations.RamEnableWrites := by
  unfold Obligations.RamEnableWrites
  intro a v s hi mapped
  rw [busWrite_ramEnable v mapped hi, ramEnableWrite, lowNibble]
  exact ⟨fun enables => by rw [decide_eq_true enables], fun disables => by rw [decide_eq_false disables]⟩

/-! ### The masks in numbers (R72, R73) -/

theorem and_mask5_toNat (v : Byte) : (v &&& 0x1F).toNat = v.toNat % 32 := by
  rw [BitVec.toNat_and]
  exact Nat.and_two_pow_sub_one_eq_mod v.toNat 5

theorem and_mask7_toNat (v : Byte) : (v &&& 0x7F).toNat = v.toNat % 128 := by
  rw [BitVec.toNat_and]
  exact Nat.and_two_pow_sub_one_eq_mod v.toNat 7

theorem and_mask2_toNat (v : Byte) : (v &&& 0x03).toNat = v.toNat % 4 := by
  rw [BitVec.toNat_and]
  exact Nat.and_two_pow_sub_one_eq_mod v.toNat 2

theorem romBankOf_mbc5bit_toNat (v : Byte) :
    (romBankOf .mbc5bit v).toNat = if v.toNat % 32 = 0 then 1 else v.toNat % 32 := by
  simp only [romBankOf, byte_eq_zero_iff, and_mask5_toNat]
  split
  · rfl
  · exact and_mask5_toNat v

theorem ramBankOf_selector {t : MbcType} {v : Byte} (h : t = .mbc7bitRtc ∧ 0x08 ≤ v.toNat ∧ v.toNat ≤ 0x0C) :
    ramBankOf t v = v := by
  obtain ⟨rfl, range⟩ := h
  exact if_pos range

theorem ramBankOf_bank_toNat {t : MbcType} {v : Byte} (mapped : t ≠ .romOnly)
    (h : ¬ (t = .mbc7bitRtc ∧ 0x08 ≤ v.toNat ∧ v.toNat ≤ 0x0C)) : (ramBankOf t v).toNat = v.toNat % 4 := by
  cases t
  case romOnly => exact absurd rfl mapped
  case mbc7bitRtc =>
    rw [ramBankOf, if_neg fun range => h ⟨rfl, range⟩]
    exact and_mask2_toNat v
  all_goals exact and_mask2_toNat v

theorem latchWrite_of_clockless {s : State} (v : Byte) (h : s.cart.mbcType ≠ .mbc7bitRtc) : latchWrite v s = s := by
  unfold latchWrite
  cases mbcType : s.cart.mbcType
  case mbc7bitRtc => exact absurd mbcType h
  all_goals rfl

theorem latchWrite_of_clock {s : State} (v : Byte) (h : s.cart.mbcType = .mbc7bitRtc) :
    latchWrite v s = { s with rtc := s.rtc.latchWrite s.clock.now v } := by
  simp only [latchWrite, h]

/-- Settles O56: each range is its own write, and each write one register. -/
theorem bankControlWrites : Obligations.BankControlWrites := by
  unfold Obligations.BankControlWrites
  intro a v s low
  refine ⟨busWrite_romOnly v low, fun mapped lo hi => ?rom, fun mapped lo hi => ?ram, fun lo clock => ?latch,
    fun lo noClock => ?none⟩
  case rom =>
    refine ⟨_, busWrite_romBank v mapped lo hi, fun h => ?_, fun h => ?_, fun h => ?_⟩ <;> rw [h]
    · exact romBankOf_mbc5bit_toNat v
    · exact and_mask7_toNat v
    · rfl
  case ram => exact ⟨_, busWrite_ramBank v mapped lo hi, ramBankOf_selector, ramBankOf_bank_toNat mapped⟩
  case latch =>
    rw [busWrite_latch v (by rw [clock]; decide) lo low, latchWrite_of_clock v clock]
    refine ⟨fun clears => ?_, fun sets => ?_, fun notClear notSet => ?_⟩
    · rw [Rtc.latchWrite, if_pos clears]
    · subst sets
      rfl
    · rw [Rtc.latchWrite, if_neg notClear, if_neg notSet]
  case none =>
    by_cases romOnly : s.cart.mbcType = .romOnly
    · exact busWrite_romOnly v low romOnly
    · rw [busWrite_latch v romOnly lo low, latchWrite_of_clockless v noClock]

/-! ## Reads repeat (R68, R90) -/

/-- Settles O57: a second refresh with the same sample changes nothing, a quiet read nothing at all. -/
theorem readsRepeat : Obligations.ReadsRepeat := by
  unfold Obligations.ReadsRepeat
  refine ⟨busRead_fst_after, fun a s quiet => ?_, fun a v s legal plain => busRead_busWrite_same legal.ram plain⟩
  rw [busRead_quiet quiet]

end Sys2Proof.Machine

/-! # The real-time clock: refresh, and where it stands still (spec/60_exceptions.md section 4) -/

namespace Sys2Proof.Machine

theorem Rtc.total_eq (r : Rtc) :
    r.total = r.s.toNat + 60 * r.m.toNat + 3600 * r.h.toNat + 86400 * (r.dl.toNat + 256 * (r.dh.toNat % 2)) := by
  rw [Rtc.total, Rtc.days, bottomBit_toNat]

theorem elapsed_eq (last now : Nat) : (if last ≤ now then now - last else 0) = now - last := by
  split <;> omega

/-- Settles O58: the laws of `Rtc.refresh` in whole seconds, for the time that the registers show. -/
theorem rtcRefreshArithmetic : Obligations.RtcRefreshArithmetic := by
  unfold Obligations.RtcRefreshArithmetic
  rintro r q now total running rfl isTotal
  rw [← Rtc.total_eq] at isTotal ⊢
  rw [elapsed_eq, isTotal]
  obtain ⟨s_lt, m_lt, h_lt⟩ := Rtc.refresh_in_range (now := now) running
  refine ⟨Rtc.refresh_total running, s_lt, m_lt, h_lt, ?overflow, Rtc.refresh_dh_middle running,
    Rtc.refresh_latched now r, Rtc.refresh_last running⟩
  case overflow => rw [Rtc.refresh_overflow_total running, Bool.or_eq_true, decide_eq_true_iff]

/-! ## On a controller without a clock no access touches it (log 11) -/

theorem readOpnd_cart (o : Opnd8) (s : State) : (readOpnd o s).2.cart = s.cart := by cases o <;> simp

theorem popByte_cart (s : State) : (popByte s).2.cart = s.cart := by simp

section
variable {s : State} (clockless : s.cart.mbcType ≠ .mbc7bitRtc)
include clockless

theorem quietRead_of_clockless (a : Word) : QuietRead s a := by
  intro reg hr
  have bounds := route_inBounds s a
  rw [hr] at bounds
  obtain ⟨-, -, window⟩ := bounds
  rw [rtcWindow_of_clockless clockless] at window
  cases window

theorem busRead_rtc_of_clockless (a : Word) : (busRead a s).2.rtc = s.rtc := by
  rw [busRead_quiet (quietRead_of_clockless clockless a)]

theorem busWrite_rtc_of_clockless (a : Word) (v : Byte) : (busWrite a v s).rtc = s.rtc := by
  by_cases low : a.toNat ≤ 0x7FFF
  · rw [busWrite_low low]
    obtain ⟨-, h⟩ | ⟨-, ⟨-, h⟩ | ⟨-, -, h⟩ | ⟨-, -, h⟩ | ⟨-, h⟩⟩ := controlWrite_cases a v s <;> rw [h]
    · rfl
    · rfl
    · rfl
    · rw [latchWrite_of_clockless v clockless]
  · rw [busWrite_high (by omega), putStore_rtc (quietRead_of_clockless clockless a)]

theorem readOpnd_rtc_of_clockless (o : Opnd8) : (readOpnd o s).2.rtc = s.rtc := by
  cases o with
  | reg r => rfl
  | mHL => exact busRead_rtc_of_clockless clockless s.hl

theorem writeOpnd_rtc_of_clockless (o : Opnd8) (v : Byte) : (writeOpnd o v s).rtc = s.rtc := by
  cases o with
  | reg r => exact s.setReg_rtc r v
  | mHL => exact busWrite_rtc_of_clockless clockless s.hl v

theorem push16_rtc_of_clockless (w : Word) : (push16 w s).rtc = s.rtc := by
  rw [(push16_sameOutside w s).2, afterPush, busWrite_rtc_of_clockless (by rwa [busWrite_cart]),
    busWrite_rtc_of_clockless clockless]

theorem popByte_rtc_of_clockless : (popByte s).2.rtc = s.rtc := by
  rw [popByte_snd, State.setSP_rtc, busRead_rtc_of_clockless clockless]

theorem pop16_rtc_of_clockless : (pop16 s).2.rtc = s.rtc := by
  have next : (popByte s).2.cart.mbcType ≠ .mbc7bitRtc := by rwa [popByte_cart]
  exact (popByte_rtc_of_clockless next).trans (popByte_rtc_of_clockless clockless)

theorem fetch_snd_of_clockless : (fetch s).2 = s := by
  have first : (busRead s.regs.pc s).2 = s := by rw [busRead_quiet (quietRead_of_clockless clockless _)]
  show (fetchBytes _ _ (busRead s.regs.pc s).2).2 = s
  rw [first, fetchBytes_quiet s _ _ fun _ _ => quietRead_of_clockless clockless _]

end

theorem aluOnA_rtc (op : AluOp) (b : Byte) (s : State) : (aluOnA op b s).rtc = s.rtc := by
  cases op <;> rfl

theorem Runs.rtc_of_clockless {i : Instr} {s t : State} (runs : Runs s i t) (h : s.cart.mbcType ≠ .mbc7bitRtc) :
    t.rtc = s.rtc := by
  have opnd (o : Opnd8) (v : Byte) : (writeOpnd o v (readOpnd o s).2).rtc = s.rtc := by
    rw [writeOpnd_rtc_of_clockless (by rwa [readOpnd_cart]), readOpnd_rtc_of_clockless h]
  cases runs
  case nop | jp | jr | jrCond | ldSP | cpl | di | ei | rotA => rfl
  case ldReg | ldPair => simp
  case ldFromHL | ldAbs => simp [busRead_rtc_of_clockless h]
  case ldToHL | stAbs => simp [busWrite_rtc_of_clockless h]
  case ldImm => simp [writeOpnd_rtc_of_clockless h]
  case call | rst | push | pushAF => simp [push16_rtc_of_clockless h]
  case ret | pop | popAF => simp [pop16_rtc_of_clockless h]
  case inc | dec | rot | prefixed => simp [opnd]
  case alu => simp [aluOnA_rtc, readOpnd_rtc_of_clockless h]
  case aluImm => simp [aluOnA_rtc]

/-- Settles O59: a halted clock is not refreshed, two refreshes add the same seconds as one, and neither the window nor the
latch of the other controllers reaches the clock. -/
theorem rtcStandsStill : Obligations.RtcStandsStill := by
  unfold Obligations.RtcStandsStill
  refine ⟨fun r now => Rtc.refresh_of_halted, fun r t u ht hu => Rtc.refresh_refresh r hu ht, fun s t h run => ?_⟩
  have clockless : s.takeSample.cart.mbcType ≠ .mbc7bitRtc := by rwa [State.takeSample_cart]
  obtain ⟨-, halted⟩ | ⟨i, -, exec⟩ := step_cases s
  · rw [halted] at run
    cases run
  · rw [exec, fetch_snd_of_clockless clockless] at run
    rw [(runs_of_exec run).rtc_of_clockless clockless, State.takeSample_rtc]

end Sys2Proof.Machine
